-- ==== Sys2Proof/Word.lean ====
section
/-! DEFINITION. The widths of CK8-FC: the byte of every register and stream, and the 17-bit host access word
(spec/00_scope.md R6, R7; spec/30_encoding.md R70). -/

namespace Sys2Proof

/-- A byte, 0..255, bit 0 least significant (R7). -/
abbrev Byte := BitVec 8

/-- Format H, one host access (R70): `W` in bit 16, `A` in bits 15..8, `D` in bits 7..0. -/
abbrev HostWord := BitVec 17

end Sys2Proof
end

