-- ==== Sys2Proof/Syntax.lean ====
section
/-! DEFINITION. The instructions of CK8-FC: the host accesses of spec/opcode_table.json. A mnemonic that the table
spreads over several mask rows (CTRL_RSVD, WR_RSVD, RD_RSVD) is one instruction (R74, R177, R180) and one constructor
(log 9). -/

namespace Sys2Proof

/-- One host access (R75): every 17-bit word is exactly one of these. A write of an ignored byte keeps that byte; a
read has no operand but its address (R171 to R177: "Operands: none"). -/
inductive Instr where
  /-- `CKCLR` (R102). -/
  | ckclr
  /-- `ENC`, `P = 0` (R120). -/
  | enc
  /-- `ENC.P`, `P = 1` (R120). -/
  | encP
  /-- `DEC` (R140). -/
  | dec
  /-- `CTRL_RSVD`: a write to `CTRL` of a reserved command byte (R74, R183). -/
  | ctrlRsvd (d : Byte)
  /-- `WR STATUS` (R180). -/
  | wrStatus (d : Byte)
  /-- `WR ACC` (R180). -/
  | wrAcc (d : Byte)
  /-- `CKBYTE d` (R103). -/
  | ckbyte (d : Byte)
  /-- `WR RXCK` (R180). -/
  | wrRxck (d : Byte)
  /-- `WR RSVD`: a write to the reserved location `a` (R180). -/
  | wrRsvd (a d : Byte)
  /-- `WR OFS_LO` (R180). -/
  | wrOfsLo (d : Byte)
  /-- `WR OFS_HI` (R180). -/
  | wrOfsHi (d : Byte)
  /-- `WR HDR_START` (R178). -/
  | wrHdrStart (d : Byte)
  /-- `WR HDR_DEVICE` (R178). -/
  | wrHdrDevice (d : Byte)
  /-- `WR HDR_ADDRESS` (R178). -/
  | wrHdrAddress (d : Byte)
  /-- `WR HDR_COMMAND` (R178). -/
  | wrHdrCommand (d : Byte)
  /-- `WR HDR_ITEM` (R178). -/
  | wrHdrItem (d : Byte)
  /-- `WR HDR_LENGTH` (R178). -/
  | wrHdrLength (d : Byte)
  /-- `WR PBUF+i` (R179). -/
  | wrPbuf (i : BitVec 7) (d : Byte)
  /-- `RD CTRL` (R177). -/
  | rdCtrl
  /-- `RD STATUS` (R171). -/
  | rdStatus
  /-- `RD ACC` (R172). -/
  | rdAcc
  /-- `RD CKDATA` (R177). -/
  | rdCkdata
  /-- `RD RXCK` (R173). -/
  | rdRxck
  /-- `RD RSVD`: a read of the reserved location `a` (R177). -/
  | rdRsvd (a : Byte)
  /-- `RD OFS_LO` (R174). -/
  | rdOfsLo
  /-- `RD OFS_HI` (R174). -/
  | rdOfsHi
  /-- `RD HDR_START` (R175). -/
  | rdHdrStart
  /-- `RD HDR_DEVICE` (R175). -/
  | rdHdrDevice
  /-- `RD HDR_ADDRESS` (R175). -/
  | rdHdrAddress
  /-- `RD HDR_COMMAND` (R175). -/
  | rdHdrCommand
  /-- `RD HDR_ITEM` (R175). -/
  | rdHdrItem
  /-- `RD HDR_LENGTH` (R175). -/
  | rdHdrLength
  /-- `RD PBUF+i` (R176). -/
  | rdPbuf (i : BitVec 7)
deriving DecidableEq, Repr

end Sys2Proof
end

