-- ==== Sys2Proof/WellFormed.lean ====
section
/-! DEFINITION. Which operands an instruction may have: the reserved command bytes of CTRL_RSVD (R74) and the reserved
locations of WR RSVD and RD RSVD (R52). Every other operand may take every value. -/

namespace Sys2Proof

/-- The reserved command bytes (R74): every one but 0x01, 0x02, 0x12 and 0x03. -/
def isReservedCommand (d : Byte) : Bool :=
  d != 0x01 && d != 0x02 && d != 0x12 && d != 0x03

/-- The reserved locations (R52): 0x05 and 0x0E..0x7F. -/
def isReservedLocation (a : Byte) : Bool :=
  a == 0x05 || (decide (0x0E ≤ a.toNat) && decide (a.toNat ≤ 0x7F))

/-- The operands are ones some host word of the instruction carries (R75). -/
def Instr.wellFormed : Instr → Bool
  | .ctrlRsvd d => isReservedCommand d
  | .wrRsvd a _ => isReservedLocation a
  | .rdRsvd a => isReservedLocation a
  | .ckclr | .enc | .encP | .dec | .ckbyte _ => true
  | .wrStatus _ | .wrAcc _ | .wrRxck _ | .wrOfsLo _ | .wrOfsHi _ => true
  | .wrHdrStart _ | .wrHdrDevice _ | .wrHdrAddress _ => true
  | .wrHdrCommand _ | .wrHdrItem _ | .wrHdrLength _ | .wrPbuf _ _ => true
  | .rdCtrl | .rdStatus | .rdAcc | .rdCkdata | .rdRxck | .rdOfsLo | .rdOfsHi => true
  | .rdHdrStart | .rdHdrDevice | .rdHdrAddress => true
  | .rdHdrCommand | .rdHdrItem | .rdHdrLength | .rdPbuf _ => true

end Sys2Proof
end

