-- ==== Sys2Proof/Decode.lean ====
section
/-! DEFINITION. The decoder of host access words (spec/30_encoding.md R70 to R75), the encoder beside it, and the rows
of spec/opcode_table.json as masks and matches. -/

namespace Sys2Proof

/-- Field `W` of format H (R70): 1 for a write. -/
def wordIsWrite (w : HostWord) : Bool := w.getLsbD 16

/-- Field `A` of format H (R70). -/
def wordAddress (w : HostWord) : Byte := w.extractLsb' 8 8

/-- Field `D` of format H (R70). -/
def wordData (w : HostWord) : Byte := w.extractLsb' 0 8

/-- The word with the given fields: `W × 0x10000 + A × 0x100 + D` (R70). -/
def hostWord (isWrite : Bool) (a d : Byte) : HostWord :=
  BitVec.ofBool isWrite ++ a ++ d

/-- The command a write to `CTRL` selects by its whole byte (R72, R182); every other byte is reserved (R74). -/
def decodeCommand (d : Byte) : Instr :=
  match d.toNat with
  | 0x01 => .ckclr
  | 0x02 => .enc
  | 0x12 => .encP
  | 0x03 => .dec
  | _ => .ctrlRsvd d

/-- The instruction of a write of `d` to address `a` (R75, R181, and the map R51). -/
def decodeWrite (a d : Byte) : Instr :=
  match a.toNat with
  | 0x00 => decodeCommand d
  | 0x01 => .wrStatus d
  | 0x02 => .wrAcc d
  | 0x03 => .ckbyte d
  | 0x04 => .wrRxck d
  | 0x06 => .wrOfsLo d
  | 0x07 => .wrOfsHi d
  | 0x08 => .wrHdrStart d
  | 0x09 => .wrHdrDevice d
  | 0x0A => .wrHdrAddress d
  | 0x0B => .wrHdrCommand d
  | 0x0C => .wrHdrItem d
  | 0x0D => .wrHdrLength d
  | _ => if a.getLsbD 7 then .wrPbuf (a.extractLsb' 0 7) d else .wrRsvd a d

/-- The instruction of a read of address `a` (R75: "A read selects by address alone"; the map R51). -/
def decodeRead (a : Byte) : Instr :=
  match a.toNat with
  | 0x00 => .rdCtrl
  | 0x01 => .rdStatus
  | 0x02 => .rdAcc
  | 0x03 => .rdCkdata
  | 0x04 => .rdRxck
  | 0x06 => .rdOfsLo
  | 0x07 => .rdOfsHi
  | 0x08 => .rdHdrStart
  | 0x09 => .rdHdrDevice
  | 0x0A => .rdHdrAddress
  | 0x0B => .rdHdrCommand
  | 0x0C => .rdHdrItem
  | 0x0D => .rdHdrLength
  | _ => if a.getLsbD 7 then .rdPbuf (a.extractLsb' 0 7) else .rdRsvd a

/-- The instruction of a host word (R75). Total: "Every 17-bit word decodes to exactly one row". -/
def decode (w : HostWord) : Instr :=
  if wordIsWrite w then decodeWrite (wordAddress w) (wordData w) else decodeRead (wordAddress w)

/-- Why a number of bits handed to the decoder is no host access. -/
inductive DecodeError where
  /-- A bit above bit 16 is set: format H has 17 bits and "no prefix" (R70, R82; log 14). Safe: nothing is run. -/
  | widerThanHostWord
deriving DecidableEq, Repr

/-- The host word that the low `nbits` bits of `w` spell, refused by name if they spell more than 17 bits (R70). -/
def hostWordOf (nbits w : Nat) : Except DecodeError HostWord :=
  if w % 2 ^ nbits < 2 ^ 17 then .ok (BitVec.ofNat 17 (w % 2 ^ nbits)) else .error .widerThanHostWord

/-- The instruction that bits of the opcode table's numbering decode to. -/
def decodeTableWord (nbits w : Nat) : Option Instr :=
  match hostWordOf nbits w with
  | .ok word => some (decode word)
  | .error _ => none

/-- The word of an instruction (R70, R72, R80). The `D` bits of a read are ignored; "assemblers put 0x00" (R70; log 9). -/
def encode : Instr → HostWord
  | .ckclr => hostWord true 0x00 0x01
  | .enc => hostWord true 0x00 0x02
  | .encP => hostWord true 0x00 0x12
  | .dec => hostWord true 0x00 0x03
  | .ctrlRsvd d => hostWord true 0x00 d
  | .wrStatus d => hostWord true 0x01 d
  | .wrAcc d => hostWord true 0x02 d
  | .ckbyte d => hostWord true 0x03 d
  | .wrRxck d => hostWord true 0x04 d
  | .wrRsvd a d => hostWord true a d
  | .wrOfsLo d => hostWord true 0x06 d
  | .wrOfsHi d => hostWord true 0x07 d
  | .wrHdrStart d => hostWord true 0x08 d
  | .wrHdrDevice d => hostWord true 0x09 d
  | .wrHdrAddress d => hostWord true 0x0A d
  | .wrHdrCommand d => hostWord true 0x0B d
  | .wrHdrItem d => hostWord true 0x0C d
  | .wrHdrLength d => hostWord true 0x0D d
  | .wrPbuf i d => hostWord true (1#1 ++ i) d
  | .rdCtrl => hostWord false 0x00 0
  | .rdStatus => hostWord false 0x01 0
  | .rdAcc => hostWord false 0x02 0
  | .rdCkdata => hostWord false 0x03 0
  | .rdRxck => hostWord false 0x04 0
  | .rdRsvd a => hostWord false a 0
  | .rdOfsLo => hostWord false 0x06 0
  | .rdOfsHi => hostWord false 0x07 0
  | .rdHdrStart => hostWord false 0x08 0
  | .rdHdrDevice => hostWord false 0x09 0
  | .rdHdrAddress => hostWord false 0x0A 0
  | .rdHdrCommand => hostWord false 0x0B 0
  | .rdHdrItem => hostWord false 0x0C 0
  | .rdHdrLength => hostWord false 0x0D 0
  | .rdPbuf i => hostWord false (1#1 ++ i) 0

/-- The mnemonic of an instruction, as spec/opcode_table.json spells it. -/
def Instr.mnemonic : Instr → String
  | .ckclr => "CKCLR"
  | .enc => "ENC"
  | .encP => "ENC.P"
  | .dec => "DEC"
  | .ctrlRsvd _ => "CTRL_RSVD"
  | .wrStatus _ => "WR_STATUS"
  | .wrAcc _ => "WR_ACC"
  | .ckbyte _ => "CKBYTE"
  | .wrRxck _ => "WR_RXCK"
  | .wrRsvd _ _ => "WR_RSVD"
  | .wrOfsLo _ => "WR_OFS_LO"
  | .wrOfsHi _ => "WR_OFS_HI"
  | .wrHdrStart _ => "WR_HDR_START"
  | .wrHdrDevice _ => "WR_HDR_DEVICE"
  | .wrHdrAddress _ => "WR_HDR_ADDRESS"
  | .wrHdrCommand _ => "WR_HDR_COMMAND"
  | .wrHdrItem _ => "WR_HDR_ITEM"
  | .wrHdrLength _ => "WR_HDR_LENGTH"
  | .wrPbuf _ _ => "WR_PBUF+i"
  | .rdCtrl => "RD_CTRL"
  | .rdStatus => "RD_STATUS"
  | .rdAcc => "RD_ACC"
  | .rdCkdata => "RD_CKDATA"
  | .rdRxck => "RD_RXCK"
  | .rdRsvd _ => "RD_RSVD"
  | .rdOfsLo => "RD_OFS_LO"
  | .rdOfsHi => "RD_OFS_HI"
  | .rdHdrStart => "RD_HDR_START"
  | .rdHdrDevice => "RD_HDR_DEVICE"
  | .rdHdrAddress => "RD_HDR_ADDRESS"
  | .rdHdrCommand => "RD_HDR_COMMAND"
  | .rdHdrItem => "RD_HDR_ITEM"
  | .rdHdrLength => "RD_HDR_LENGTH"
  | .rdPbuf _ => "RD_PBUF+i"

/-- A row of spec/opcode_table.json. -/
structure OpcodeRow where
  mnemonic : String
  value : HostWord
  mask : HostWord
deriving DecidableEq, Repr

/-- The word has the row's fixed bits (R70). -/
def OpcodeRow.matchesWord (r : OpcodeRow) (w : HostWord) : Bool := w &&& r.mask == r.value

/-- The table's rows of writes to `CTRL` (R72, R74). -/
def commandRows : List OpcodeRow :=
    [⟨"CKCLR", 0x10001, 0x1FFFF⟩,
     ⟨"ENC", 0x10002, 0x1FFFF⟩,
     ⟨"ENC.P", 0x10012, 0x1FFFF⟩,
     ⟨"DEC", 0x10003, 0x1FFFF⟩,
     ⟨"CTRL_RSVD", 0x10000, 0x1FFFF⟩,
     ⟨"CTRL_RSVD", 0x10004, 0x1FFFC⟩,
     ⟨"CTRL_RSVD", 0x10008, 0x1FFF8⟩,
     ⟨"CTRL_RSVD", 0x10010, 0x1FFFE⟩,
     ⟨"CTRL_RSVD", 0x10013, 0x1FFFF⟩,
     ⟨"CTRL_RSVD", 0x10014, 0x1FFFC⟩,
     ⟨"CTRL_RSVD", 0x10018, 0x1FFF8⟩,
     ⟨"CTRL_RSVD", 0x10020, 0x1FFE0⟩,
     ⟨"CTRL_RSVD", 0x10040, 0x1FFC0⟩,
     ⟨"CTRL_RSVD", 0x10080, 0x1FF80⟩]

/-- The table's rows of writes to 0x01..0x09. -/
def writeRowsLow : List OpcodeRow :=
    [⟨"WR_STATUS", 0x10100, 0x1FF00⟩,
     ⟨"WR_ACC", 0x10200, 0x1FF00⟩,
     ⟨"CKBYTE", 0x10300, 0x1FF00⟩,
     ⟨"WR_RXCK", 0x10400, 0x1FF00⟩,
     ⟨"WR_RSVD", 0x10500, 0x1FF00⟩,
     ⟨"WR_OFS_LO", 0x10600, 0x1FF00⟩,
     ⟨"WR_OFS_HI", 0x10700, 0x1FF00⟩,
     ⟨"WR_HDR_START", 0x10800, 0x1FF00⟩,
     ⟨"WR_HDR_DEVICE", 0x10900, 0x1FF00⟩]

/-- The table's rows of writes from 0x0A on. -/
def writeRowsHigh : List OpcodeRow :=
    [⟨"WR_HDR_ADDRESS", 0x10A00, 0x1FF00⟩,
     ⟨"WR_HDR_COMMAND", 0x10B00, 0x1FF00⟩,
     ⟨"WR_HDR_ITEM", 0x10C00, 0x1FF00⟩,
     ⟨"WR_HDR_LENGTH", 0x10D00, 0x1FF00⟩,
     ⟨"WR_RSVD", 0x10E00, 0x1FE00⟩,
     ⟨"WR_RSVD", 0x11000, 0x1F000⟩,
     ⟨"WR_RSVD", 0x12000, 0x1E000⟩,
     ⟨"WR_RSVD", 0x14000, 0x1C000⟩,
     ⟨"WR_PBUF+i", 0x18000, 0x18000⟩]

/-- The table's rows of reads of 0x00..0x08. -/
def readRowsLow : List OpcodeRow :=
    [⟨"RD_CTRL", 0x00000, 0x1FF00⟩,
     ⟨"RD_STATUS", 0x00100, 0x1FF00⟩,
     ⟨"RD_ACC", 0x00200, 0x1FF00⟩,
     ⟨"RD_CKDATA", 0x00300, 0x1FF00⟩,
     ⟨"RD_RXCK", 0x00400, 0x1FF00⟩,
     ⟨"RD_RSVD", 0x00500, 0x1FF00⟩,
     ⟨"RD_OFS_LO", 0x00600, 0x1FF00⟩,
     ⟨"RD_OFS_HI", 0x00700, 0x1FF00⟩,
     ⟨"RD_HDR_START", 0x00800, 0x1FF00⟩]

/-- The table's rows of reads from 0x09 on. -/
def readRowsHigh : List OpcodeRow :=
    [⟨"RD_HDR_DEVICE", 0x00900, 0x1FF00⟩,
     ⟨"RD_HDR_ADDRESS", 0x00A00, 0x1FF00⟩,
     ⟨"RD_HDR_COMMAND", 0x00B00, 0x1FF00⟩,
     ⟨"RD_HDR_ITEM", 0x00C00, 0x1FF00⟩,
     ⟨"RD_HDR_LENGTH", 0x00D00, 0x1FF00⟩,
     ⟨"RD_RSVD", 0x00E00, 0x1FE00⟩,
     ⟨"RD_RSVD", 0x01000, 0x1F000⟩,
     ⟨"RD_RSVD", 0x02000, 0x1E000⟩,
     ⟨"RD_RSVD", 0x04000, 0x1C000⟩,
     ⟨"RD_PBUF+i", 0x08000, 0x18000⟩]

/-- The 51 rows of spec/opcode_table.json, in its order. -/
def opcodeTable : List OpcodeRow :=
  commandRows ++ writeRowsLow ++ writeRowsHigh ++ readRowsLow ++ readRowsHigh

end Sys2Proof
end

