-- ==== Sys2Proof/Config.lean ====
section
/-! DEFINITION. The parameters the spec names (spec/00_scope.md R5, R6) and the free values that stand for what it
leaves open (spec/10_state.md R30; spec/93_implementation_defined.md section 3). -/

namespace Sys2Proof.Config

/-- `START_MARKER` (R5): a named parameter, 0xAA in this spec (D31; log 8, UNVERIFIED). -/
def startMarker : Byte := 0xAA

/-- `HDR_LEN` (R5). -/
def hdrLen : Nat := 6

/-- `MAX_PAYLOAD` (R5): the largest legal `length`. -/
def maxPayload : Nat := 120

/-- `OFS_LEN` (R5). -/
def ofsLen : Nat := 2

/-- `CK_LEN` (R5). -/
def ckLen : Nat := 1

/-- The checksum width (R5): 8 bits, so that a checksum is one byte of the frame. -/
abbrev checksumWidth : Nat := 8

/-- `PBUF_SIZE` (R6, D4). -/
def pbufSize : Nat := 128

/-- How many payload-buffer bytes a failed decode leaves `UNSPEC`: `PBUF[0..117]`, the most a decode can write
(R145, R150). -/
def decodeReach : Nat := maxPayload - ofsLen

/-- FREE VALUE (log 2): the unconstrained byte that the n-th event sees in place of an `UNSPEC` byte (R30 cases 1, 2). -/
opaque drawByte : Nat → Byte

/-- FREE VALUE (log 6): the length by which the n-th event sequences a running command whose `HDR[5]` is `UNSPEC`.
R22 bounds it: no index of a running command passes payload byte 119. -/
opaque drawLength : Nat → Fin 121

/-- FREE VALUE (log 2, log 7): the n-th event's unconstrained two-way outcome: `ACC = UNSPEC` against a received byte
(R30 case 3), and `HDR[0]` after a failed encode (R121). -/
opaque drawChoice : Nat → Bool

end Sys2Proof.Config
end

