-- ==== Sys2Proof/Machine/State.lean ====
section
/-! DEFINITION. The state of CK8-FC (spec/10_state.md R20 to R35), the environment's side of its three interfaces
(R32; spec/20_memory.md R50), and the state after reset (spec/70_reset_and_hazards.md R232). -/

namespace Sys2Proof.Machine

/-- What an 8-bit register holds: a byte, or `UNSPEC`, the spec's own value of a register whose content it does not fix
(R8, R30). -/
inductive Reg where
  /-- `UNSPEC`: "It could be any byte, or a different byte at each read" (R30). -/
  | unspec
  /-- The byte `b`. -/
  | val (b : Byte)
deriving DecidableEq, Repr

/-- The sequencer's phases (R21). -/
inductive Phase where
  | idle | encHdr | encPay | encCk | decHdr | decOfs | decPay | decCk
deriving DecidableEq, Repr

/-- The header's six fields in wire order (R24). -/
inductive HdrField where
  | start | device | address | command | item | length
deriving DecidableEq, Repr

/-- The header registers `HDR[0..5]` (R24). -/
structure Header where
  start : Reg
  device : Reg
  address : Reg
  command : Reg
  item : Reg
  length : Reg
deriving DecidableEq, Repr

/-- A byte memory: index and byte, indices strictly rising; an index that is not listed reads as `UNSPEC` (log 11). -/
abbrev Memory := List Host.Cell

/-- One event of the receive stream (R57). -/
inductive RxEvent where
  /-- `RxByte(b)`: the producer delivers a byte. -/
  | byte (b : Byte)
  /-- `RxEos`: the transport's read came up short. -/
  | eos
deriving DecidableEq, Repr

/-- Who moves next (R32). The receive stream's own contents stand in `State.rx`. -/
inductive Event where
  /-- The host makes the access of this word (R70). -/
  | host (w : HostWord)
  /-- The transmit consumer accepts the byte the block presents, if it presents one (R56). -/
  | txAccept
  /-- The receive producer offers the next event of its stream (R57). -/
  | rxOffer
  /-- `Reset` (R230). -/
  | reset
deriving DecidableEq, Repr

/-- The causes of failure that some command raises (R201). -/
inductive Cause where
  | length | noPayload | short | marker | checksum | badCmd
deriving DecidableEq, Repr

/-- Reasons for a fault. There are none: "CK8-FC never traps, never vectors and never halts" (R200; log 13). -/
inductive Fault where
deriving DecidableEq, Repr

/-- Reasons for a refusal. -/
inductive Refusal where
  /-- Raised by `exec` for an instruction that has no meaning yet; no arm raises it. Safe: nothing is run. -/
  | notModelled (mnemonic : String)
deriving DecidableEq, Repr

/-- The whole state: R20's registers, then the environment's side. -/
structure State where
  /-- `PHASE` (R21). -/
  phase : Phase
  /-- `IDX` (R22). -/
  idx : BitVec 7
  /-- `ACC` (R23). -/
  acc : Reg
  /-- `HDR[0..5]` (R24). -/
  hdr : Header
  /-- `OFS[7:0]` (R25). -/
  ofsLo : Reg
  /-- `OFS[15:8]` (R25). -/
  ofsHi : Reg
  /-- `RXCK` (R26). -/
  rxck : Reg
  /-- `PBUF[0..127]` (R27), by index; `PBUF[i]` is host address 0x80 + i (R51). -/
  pbuf : Memory
  /-- `STATUS.OK` (R28). -/
  ok : Bool
  /-- `STATUS.FAIL` (R28). -/
  fail : Bool
  /-- `STATUS.ERR` (R28, R201). -/
  err : BitVec 3
  /-- MODEL'S OWN (log 3): what the environment does next, oldest first. -/
  agenda : List Event
  /-- MODEL'S OWN (log 3): the receive events the producer still holds, in stream order (R57). -/
  rx : List RxEvent
  /-- MODEL'S OWN (log 3): the bytes the transmit consumer has taken, oldest first (R56). -/
  tx : List Byte
  /-- MODEL'S OWN (log 4): the bytes host reads have returned, oldest first (R170). -/
  reads : List Byte
  /-- MODEL'S OWN (log 2): the number of events consumed, which indexes the free values of Config. -/
  tick : Nat
deriving DecidableEq, Repr

/-- The header after reset: all six `UNSPEC` (R24, R232). -/
def Header.unspec : Header :=
  { start := .unspec, device := .unspec, address := .unspec, command := .unspec, item := .unspec, length := .unspec }

/-- The machine right after reset (R232), its environment with nothing to do (log 3). -/
def State.reset : State :=
  { phase := .idle, idx := 0, acc := .val 0x00, hdr := Header.unspec, ofsLo := .unspec, ofsHi := .unspec,
    rxck := .unspec, pbuf := [], ok := false, fail := false, err := 0,
    agenda := [], rx := [], tx := [], reads := [], tick := 0 }

end Sys2Proof.Machine
end

