-- ==== Sys2Proof/Machine/Ops.lean ====
section
/-! DEFINITION. The named operations on registers, header and payload buffer, the use of `UNSPEC` values
(spec/10_state.md R30), and the completion of commands, which is this block's whole exception machinery
(spec/60_exceptions.md R205 to R207). -/

namespace Sys2Proof.Machine

/-! ## Registers that may be `UNSPEC` -/

/-- The byte a use of the register sees: its own, or the given free byte in place of `UNSPEC` (R30 cases 1 and 2). -/
def Reg.value (r : Reg) (free : Byte) : Byte :=
  match r with
  | .val b => b
  | .unspec => free

/-- One subtraction of the checksum, `(a − b) mod 256` (R104, R107). An `UNSPEC` operand leaves `UNSPEC` (R30 case 2,
R103). -/
def Reg.minus (a b : Reg) : Reg :=
  match a, b with
  | .val x, .val y => .val (x - y)
  | _, _ => .unspec

/-! ## Header -/

/-- Read `HDR[i]` by its field. -/
def Header.get (h : Header) (f : HdrField) : Reg :=
  match f with
  | .start => h.start
  | .device => h.device
  | .address => h.address
  | .command => h.command
  | .item => h.item
  | .length => h.length

/-- Write `HDR[i]` by its field. -/
def Header.set (h : Header) (f : HdrField) (r : Reg) : Header :=
  match f with
  | .start => { h with start := r }
  | .device => { h with device := r }
  | .address => { h with address := r }
  | .command => { h with command := r }
  | .item => { h with item := r }
  | .length => { h with length := r }

/-- The field that header byte `i` is (R24). R22 bounds the index by 5; a larger one, which no run reaches, is taken as
5 (log 15). -/
def hdrFieldOf (i : Nat) : HdrField :=
  match i with
  | 0 => .start
  | 1 => .device
  | 2 => .address
  | 3 => .command
  | 4 => .item
  | _ => .length

/-! ## Payload buffer -/

/-- Read the byte at index `k`: `UNSPEC` if it is not listed (R27, R30). -/
def Memory.read (m : Memory) (k : Nat) : Reg :=
  match m with
  | [] => .unspec
  | (a, b) :: rest => if a = k then .val b else Memory.read rest k

/-- Write byte `d` at index `k`, keeping the indices rising. -/
def Memory.write (m : Memory) (k : Nat) (d : Byte) : Memory :=
  match m with
  | [] => [(k, d)]
  | (a, b) :: rest =>
    if k < a then (k, d) :: (a, b) :: rest
    else if k = a then (k, d) :: rest
    else (a, b) :: Memory.write rest k d

/-- Make every index below `n` `UNSPEC` (R150). -/
def Memory.forgetBelow (m : Memory) (n : Nat) : Memory :=
  m.filter (fun c => decide (n ≤ c.1))

/-- The listed indices rise strictly and each is above `low`. -/
def Memory.risesFrom (low : Nat) (m : Memory) : Bool :=
  match m with
  | [] => true
  | (a, _) :: rest => decide (low ≤ a) && Memory.risesFrom (a + 1) rest

/-- The canonical form (log 11): indices rise strictly and lie in `PBUF[0..127]` (R27). An unlisted index reads as
`UNSPEC`, which no listed byte equals. -/
def Memory.wf (m : Memory) : Bool :=
  Memory.risesFrom 0 m && m.all (fun c => decide (c.1 < Config.pbufSize))

/-! ## Busy -/

/-- `STATUS.BUSY = (PHASE ≠ IDLE)` (R29). -/
def State.busy (s : State) : Bool := s.phase != .idle

/-! ## Completion: the block's way of taking and clearing a failure -/

/-- The code of a cause in `STATUS.ERR` (R201). -/
def Cause.code (c : Cause) : BitVec 3 :=
  match c with
  | .length => 1
  | .noPayload => 2
  | .short => 3
  | .marker => 4
  | .checksum => 5
  | .badCmd => 6

/-- `accept_command()` (R207): the only clearing of a completion's status apart from reset. -/
def State.acceptCommand (s : State) : State :=
  { s with ok := false, fail := false, err := 0 }

/-- `complete_ok()` (R206). -/
def State.completeOk (s : State) : State :=
  { s with phase := .idle, idx := 0, ok := true, fail := false, err := 0 }

/-- `complete_fail(code)` (R205), without the outputs that the failing command gives up. -/
def State.completeFail (c : Cause) (s : State) : State :=
  { s with phase := .idle, idx := 0, ok := false, fail := true, err := c.code }

/-! ## Events that leave registers `UNSPEC` -/

/-- What a failed decode gives up (R150): `HDR`, `OFS`, `RXCK`, `ACC` and `PBUF[0..117]`. -/
def State.forgetDecodeOutputs (s : State) : State :=
  { s with hdr := Header.unspec, ofsLo := .unspec, ofsHi := .unspec, rxck := .unspec, acc := .unspec,
           pbuf := s.pbuf.forgetBelow Config.decodeReach }

/-- `complete_fail` for a cause of `DEC` (R205, R150). -/
def State.decodeFail (c : Cause) (s : State) : State :=
  s.forgetDecodeOutputs.completeFail c

/-- `complete_fail` for a cause of `ENC` (R205): `HDR[0]` is its old value or `START_MARKER`, by a free choice (R121;
log 7). -/
def State.encodeFail (c : Cause) (s : State) : State :=
  State.completeFail c
    { s with hdr := s.hdr.set .start
              (if Config.drawChoice s.tick then .val Config.startMarker else s.hdr.start) }

/-- A write to `CTRL`, `CKDATA`, `HDR` or `PBUF` while a command runs (R234): its target, `ACC`, `HDR`, `PBUF`, `OFS`
and `RXCK` all become `UNSPEC`; the sequencer and `STATUS` are not changed (log 5). The model that
stops here is `Safety.checkedStep` (D23, U6). -/
def State.busyHazard (s : State) : State :=
  { s with acc := .unspec, hdr := Header.unspec, pbuf := [], ofsLo := .unspec, ofsHi := .unspec, rxck := .unspec }

/-- A host write that is a hazard while busy (R181, R234) and otherwise leaves `t`. -/
def State.guardedWrite (s t : State) : State :=
  if s.busy then s.busyHazard else t

/-! ## Host reads -/

/-- The host receives byte `b` (R170; log 4). -/
def State.returnByte (b : Byte) (s : State) : State :=
  { s with reads := s.reads ++ [b] }

/-- A read of register `r` (R170): `UNSPEC` while busy, and a read of `UNSPEC` returns an unconstrained byte (R30 case
1). -/
def State.returnReg (r : Reg) (s : State) : State :=
  s.returnByte ((if s.busy then Reg.unspec else r).value (Config.drawByte s.tick))

/-! ## Length -/

/-- `L = HDR[5]` as the sequencer of a running command uses it: the register's byte, or a free length of at most 120
where it is `UNSPEC` (R22, R30; log 6). -/
def State.sequenceLength (s : State) : Nat :=
  match s.hdr.length with
  | .val b => b.toNat
  | .unspec => (Config.drawLength s.tick).val

/-! ## Reset -/

/-- The `Reset` event (R230): every register at its reset value. "Reset does not undo any stream event" (R231), so the
environment's side stays. -/
def State.resetBlock (s : State) : State :=
  { State.reset with agenda := s.agenda, rx := s.rx, tx := s.tx, reads := s.reads, tick := s.tick }

end Sys2Proof.Machine
end

