-- ==== Sys2Proof/Machine/Checksum.lean ====
section
/-! DEFINITION. The Checksum-8 unit: the function `ck8`, CKCLR and CKBYTE (spec/40_checksum.md). -/

namespace Sys2Proof.Machine

/-- `Σ s` over the integers (R7). -/
def byteSum (bytes : List Byte) : Nat := (bytes.map BitVec.toNat).sum

/-- `ck8(s) = (256 − (Σ s mod 256)) mod 256` (R100), of the checksum width (R5), which is a byte's. -/
def ck8 (bytes : List Byte) : BitVec Config.checksumWidth :=
  BitVec.ofNat Config.checksumWidth ((256 - byteSum bytes % 256) % 256)

/-- `ACC <- (ACC − b) mod 256` (R104): the one step that CKBYTE, ENC and DEC share. -/
def State.subtract (r : Reg) (s : State) : State :=
  { s with acc := s.acc.minus r }

/-- `CKCLR` (R102). -/
def execCkclr (s : State) : Host.Outcome State Fault Refusal :=
  .next (s.guardedWrite (State.completeOk { s.acceptCommand with acc := .val 0x00 }))

/-- `CKBYTE d` (R103). `STATUS` is unchanged. -/
def execCkbyte (d : Byte) (s : State) : Host.Outcome State Fault Refusal :=
  .next (s.guardedWrite (s.subtract (.val d)))

end Sys2Proof.Machine
end

