-- ==== Sys2Proof/Machine/Operands.lean ====
section
/-! DEFINITION. The operands of the block: the host's writes to the storage registers (spec/43_register_access.md R178,
R179), the byte presented on the transmit stream (spec/41_frame_encode.md R124) and the offset field
(spec/10_state.md R25). -/

namespace Sys2Proof.Machine

/-- `HDR[i] <- d` by the host (R178). -/
def State.writeHdr (f : HdrField) (d : Byte) (s : State) : State :=
  s.guardedWrite { s with hdr := s.hdr.set f (.val d) }

/-- `PBUF[i] <- d` by the host (R179). -/
def State.writePbuf (i : BitVec 7) (d : Byte) (s : State) : State :=
  s.guardedWrite { s with pbuf := s.pbuf.write i.toNat d }

/-- The register whose byte the block presents on tx (R124); none outside the `ENC_*` phases. -/
def State.txReg (s : State) : Option Reg :=
  match s.phase with
  | .encHdr => some (s.hdr.get (hdrFieldOf s.idx.toNat))
  | .encPay => some (s.pbuf.read s.idx.toNat)
  | .encCk => some s.acc
  | .idle | .decHdr | .decOfs | .decPay | .decCk => none

/-- `OFS` as one 16-bit value, `{offset_hi, offset_lo}` (R25, R53), when both its bytes are defined. -/
def State.ofsWord (s : State) : Option (BitVec 16) :=
  match s.ofsHi, s.ofsLo with
  | .val hi, .val lo => some (hi ++ lo)
  | _, _ => none

/-- `ACC = b`, as the checksum comparison sees it: unconstrained if `ACC` is `UNSPEC` (R30 case 3, R146). -/
def State.accMatches (b : Byte) (s : State) : Bool :=
  match s.acc with
  | .val a => a == b
  | .unspec => Config.drawChoice s.tick

end Sys2Proof.Machine
end

