-- ==== Sys2Proof/Machine/FrameDecode.lean ====
section
/-! DEFINITION. The header parser and frame validation: DEC and the receive steps (spec/42_frame_decode.md). -/

namespace Sys2Proof.Machine

/-- `DEC` (R140). -/
def execDec (s : State) : Host.Outcome State Fault Refusal :=
  .next (s.guardedWrite { s.acceptCommand with acc := .val 0x00, idx := 0, phase := .decHdr })

/-- `select_body()` (R143). At `length` 1 no body byte is read (R152). -/
def State.selectBody (s : State) : State :=
  { s with idx := 0, phase := if 2 ≤ s.sequenceLength then .decOfs else .decCk }

/-- `header_check()` (R142): the marker, then the length bound (R204). -/
def State.headerCheck (s : State) : State :=
  if s.hdr.start.value (Config.drawByte s.tick) ≠ Config.startMarker then s.decodeFail .marker
  else if Config.maxPayload < (s.hdr.length.value (Config.drawByte s.tick)).toNat then s.decodeFail .length
  else s.selectBody

/-- `RxByte(b)` in `DEC_HDR` (R141). -/
def State.rxHdr (b : Byte) (s : State) : State :=
  let t := State.subtract (.val b) { s with hdr := s.hdr.set (hdrFieldOf s.idx.toNat) (.val b) }
  if s.idx.toNat < 5 then { t with idx := s.idx + 1 } else t.headerCheck

/-- `RxByte(b)` in `DEC_OFS` (R144). -/
def State.rxOfs (b : Byte) (s : State) : State :=
  let t := s.subtract (.val b)
  if s.idx = 0 then { t with ofsLo := .val b, idx := 1 }
  else { t with ofsHi := .val b, idx := 0, phase := if 2 < s.sequenceLength then .decPay else .decCk }

/-- `RxByte(b)` in `DEC_PAY` (R145). -/
def State.rxPay (b : Byte) (s : State) : State :=
  let t := State.subtract (.val b) { s with pbuf := s.pbuf.write s.idx.toNat b }
  if s.idx.toNat + 3 < s.sequenceLength then { t with idx := s.idx + 1 }
  else { t with idx := 0, phase := .decCk }

/-- `OFS` after a successful decode that carried no offset field is `UNSPEC` (R25, R149). -/
def State.settleOffset (s : State) : State :=
  if s.sequenceLength < 2 then { s with ofsLo := .unspec, ofsHi := .unspec } else s

/-- `RxByte(b)` in `DEC_CK`: the checksum comparison (R146) and the outputs (R149, R150). -/
def State.rxCk (b : Byte) (s : State) : State :=
  let t := { s with rxck := .val b }
  if s.accMatches b then t.settleOffset.completeOk else t.decodeFail .checksum

/-- `RxByte(b)` taken by the block (R57). -/
def State.rxByte (b : Byte) (s : State) : State :=
  match s.phase with
  | .decHdr => s.rxHdr b
  | .decOfs => s.rxOfs b
  | .decPay => s.rxPay b
  | .decCk => s.rxCk b
  | .idle | .encHdr | .encPay | .encCk => s

/-- The block is ready for a receive event in the `DEC_*` phases only (R57). -/
def State.rxReady (s : State) : Bool :=
  match s.phase with
  | .decHdr | .decOfs | .decPay | .decCk => true
  | .idle | .encHdr | .encPay | .encCk => false

/-- `RxEos`: a short read fails a running decode (R147) and has no effect otherwise (R57). -/
def State.rxEos (s : State) : State :=
  if s.rxReady then s.decodeFail .short else s

/-- The producer offers the next event of its stream (R57). A byte is taken only when the block is ready and stays with
the producer otherwise; an end-of-stream event is used up in every phase (log 10); a producer with nothing to offer
changes nothing (R238). -/
def State.rxOffer (s : State) : State :=
  match s.rx with
  | [] => s
  | .byte b :: rest => if s.rxReady then State.rxByte b { s with rx := rest } else s
  | .eos :: rest => State.rxEos { s with rx := rest }

end Sys2Proof.Machine
end

