-- ==== Sys2Proof/Machine/FrameEncode.lean ====
section
/-! DEFINITION. The serializer: ENC, ENC.P and the transmit steps (spec/41_frame_encode.md). -/

namespace Sys2Proof.Machine

/-- The start of an encode once both checks have passed (R120). -/
def State.startEncode (s : State) : State :=
  { s with hdr := s.hdr.set .start (.val Config.startMarker), acc := .val 0x00, idx := 0, phase := .encHdr }

/-- `ENC` with payload-present bit `p`, accepted while idle (R120). `LENGTH` is checked before `NOPAYLOAD` (R203). The
length is read once; where `HDR[5]` is `UNSPEC` it is a free byte (log 6), and the model that stops here is
`Safety.checkedStep` (D36, U1). -/
def State.acceptEncode (p : Bool) (s : State) : State :=
  let len := (s.hdr.length.value (Config.drawByte s.tick)).toNat
  if Config.maxPayload < len then s.acceptCommand.encodeFail .length
  else if 0 < len ∧ p = false then s.acceptCommand.encodeFail .noPayload
  else s.acceptCommand.startEncode

/-- `ENC`, `P = 0` (R120). -/
def execEnc (s : State) : Host.Outcome State Fault Refusal :=
  .next (s.guardedWrite (s.acceptEncode false))

/-- `ENC.P`, `P = 1` (R120). -/
def execEncP (s : State) : Host.Outcome State Fault Refusal :=
  .next (s.guardedWrite (s.acceptEncode true))

/-- The sequencer after a header byte is taken (R125). -/
def State.afterTxHdr (s : State) : State :=
  if s.idx.toNat < 5 then { s with idx := s.idx + 1 }
  else if s.sequenceLength = 0 then { s with idx := 0, phase := .encCk }
  else { s with idx := 0, phase := .encPay }

/-- The sequencer after a payload byte is taken (R126). -/
def State.afterTxPay (s : State) : State :=
  if s.idx.toNat + 1 < s.sequenceLength then { s with idx := s.idx + 1 }
  else { s with idx := 0, phase := .encCk }

/-- What the block does once the consumer has taken the byte of register `r` (R125, R126, R127). -/
def State.afterTx (r : Reg) (s : State) : State :=
  match s.phase with
  | .encHdr => (s.subtract r).afterTxHdr
  | .encPay => (s.subtract r).afterTxPay
  | .encCk => s.completeOk
  | .idle | .decHdr | .decOfs | .decPay | .decCk => s

/-- `TxAccept` (R56): the presented byte moves to the consumer and the block steps; not enabled, hence without effect,
where no byte is presented (log 10). An `UNSPEC` byte is sent as an unconstrained one (R30 case 2, R124; log 1), and
the model that stops here is `Safety.checkedStep` (D36, U1). -/
def State.txAccept (s : State) : State :=
  match s.txReg with
  | none => s
  | some r => State.afterTx r { s with tx := s.tx ++ [r.value (Config.drawByte s.tick)] }

end Sys2Proof.Machine
end

