-- ==== Sys2Proof/Machine/Flags.lean ====
section
/-! DEFINITION. The status register as the host reads it (spec/10_state.md R28; spec/43_register_access.md R171). OK,
FAIL and ERR are the block's only flags (R33). -/

namespace Sys2Proof.Machine

/-- `STATUS` (R171): `{0, ERR[2:0], 0, FAIL, OK, BUSY}`, bits 7..0. -/
def State.statusByte (s : State) : Byte :=
  0#1 ++ s.err ++ 0#1 ++ BitVec.ofBool s.fail ++ BitVec.ofBool s.ok ++ BitVec.ofBool s.busy

end Sys2Proof.Machine
end

