-- ==== Sys2Proof/Machine/RegisterAccess.lean ====
section
/-! DEFINITION. Host register access: the reads, the writes and the reserved commands (spec/43_register_access.md). -/

namespace Sys2Proof.Machine

/-! ## Reads -/

/-- `RD CTRL` (R177): 0x00 "even while busy". -/
def execRdCtrl (s : State) : Host.Outcome State Fault Refusal := .next (s.returnByte 0x00)

/-- `RD CKDATA` (R177). -/
def execRdCkdata (s : State) : Host.Outcome State Fault Refusal := .next (s.returnByte 0x00)

/-- `RD RSVD` (R177): a reserved location, whichever it is, reads 0x00. -/
def execRdRsvd (_a : Byte) (s : State) : Host.Outcome State Fault Refusal := .next (s.returnByte 0x00)

/-- `RD STATUS` (R171): "defined at every step, busy or not". -/
def execRdStatus (s : State) : Host.Outcome State Fault Refusal := .next (s.returnByte s.statusByte)

/-- `RD ACC` (R172). -/
def execRdAcc (s : State) : Host.Outcome State Fault Refusal := .next (s.returnReg s.acc)

/-- `RD RXCK` (R173). -/
def execRdRxck (s : State) : Host.Outcome State Fault Refusal := .next (s.returnReg s.rxck)

/-- `RD OFS_LO` (R174). -/
def execRdOfsLo (s : State) : Host.Outcome State Fault Refusal := .next (s.returnReg s.ofsLo)

/-- `RD OFS_HI` (R174). -/
def execRdOfsHi (s : State) : Host.Outcome State Fault Refusal := .next (s.returnReg s.ofsHi)

/-- `RD HDR_START` (R175). -/
def execRdHdrStart (s : State) : Host.Outcome State Fault Refusal := .next (s.returnReg (s.hdr.get .start))

/-- `RD HDR_DEVICE` (R175). -/
def execRdHdrDevice (s : State) : Host.Outcome State Fault Refusal := .next (s.returnReg (s.hdr.get .device))

/-- `RD HDR_ADDRESS` (R175). -/
def execRdHdrAddress (s : State) : Host.Outcome State Fault Refusal := .next (s.returnReg (s.hdr.get .address))

/-- `RD HDR_COMMAND` (R175). -/
def execRdHdrCommand (s : State) : Host.Outcome State Fault Refusal := .next (s.returnReg (s.hdr.get .command))

/-- `RD HDR_ITEM` (R175). -/
def execRdHdrItem (s : State) : Host.Outcome State Fault Refusal := .next (s.returnReg (s.hdr.get .item))

/-- `RD HDR_LENGTH` (R175). -/
def execRdHdrLength (s : State) : Host.Outcome State Fault Refusal := .next (s.returnReg (s.hdr.get .length))

/-- `RD PBUF+i` (R176). -/
def execRdPbuf (i : BitVec 7) (s : State) : Host.Outcome State Fault Refusal :=
  .next (s.returnReg (s.pbuf.read i.toNat))

/-! ## Writes that are stored -/

/-- `WR HDR_START, d` (R178). -/
def execWrHdrStart (d : Byte) (s : State) : Host.Outcome State Fault Refusal := .next (s.writeHdr .start d)

/-- `WR HDR_DEVICE, d` (R178). -/
def execWrHdrDevice (d : Byte) (s : State) : Host.Outcome State Fault Refusal := .next (s.writeHdr .device d)

/-- `WR HDR_ADDRESS, d` (R178). -/
def execWrHdrAddress (d : Byte) (s : State) : Host.Outcome State Fault Refusal := .next (s.writeHdr .address d)

/-- `WR HDR_COMMAND, d` (R178). -/
def execWrHdrCommand (d : Byte) (s : State) : Host.Outcome State Fault Refusal := .next (s.writeHdr .command d)

/-- `WR HDR_ITEM, d` (R178). -/
def execWrHdrItem (d : Byte) (s : State) : Host.Outcome State Fault Refusal := .next (s.writeHdr .item d)

/-- `WR HDR_LENGTH, d` (R178): "any d is accepted". -/
def execWrHdrLength (d : Byte) (s : State) : Host.Outcome State Fault Refusal := .next (s.writeHdr .length d)

/-- `WR PBUF+i, d` (R179). -/
def execWrPbuf (i : BitVec 7) (d : Byte) (s : State) : Host.Outcome State Fault Refusal := .next (s.writePbuf i d)

/-! ## Writes that are ignored, at any time -/

/-- `WR STATUS, d` (R180). -/
def execWrStatus (_d : Byte) (s : State) : Host.Outcome State Fault Refusal := .next s

/-- `WR ACC, d` (R180). -/
def execWrAcc (_d : Byte) (s : State) : Host.Outcome State Fault Refusal := .next s

/-- `WR RXCK, d` (R180). -/
def execWrRxck (_d : Byte) (s : State) : Host.Outcome State Fault Refusal := .next s

/-- `WR OFS_LO, d` (R180). -/
def execWrOfsLo (_d : Byte) (s : State) : Host.Outcome State Fault Refusal := .next s

/-- `WR OFS_HI, d` (R180). -/
def execWrOfsHi (_d : Byte) (s : State) : Host.Outcome State Fault Refusal := .next s

/-- `WR RSVD` (R180): a write to a reserved location, whichever it is. -/
def execWrRsvd (_a _d : Byte) (s : State) : Host.Outcome State Fault Refusal := .next s

/-! ## The reserved commands -/

/-- `CTRL_RSVD` (R183): accepted while idle, completes at once with `BADCMD`. -/
def execCtrlRsvd (_d : Byte) (s : State) : Host.Outcome State Fault Refusal :=
  .next (s.guardedWrite (s.acceptCommand.completeFail .badCmd))

end Sys2Proof.Machine
end

