-- ==== Sys2Proof/Machine/Dispatch.lean ====
section
/-! DEFINITION. One arm per host access: its meaning (spec/43_register_access.md R181, R182). -/

namespace Sys2Proof.Machine

def exec (i : Instr) (s : State) : Host.Outcome State Fault Refusal :=
  match i with
  | .ckclr => Sys2Proof.Machine.execCkclr s
  | .enc => Sys2Proof.Machine.execEnc s
  | .encP => Sys2Proof.Machine.execEncP s
  | .dec => Sys2Proof.Machine.execDec s
  | .ctrlRsvd d => Sys2Proof.Machine.execCtrlRsvd d s
  | .wrStatus d => Sys2Proof.Machine.execWrStatus d s
  | .wrAcc d => Sys2Proof.Machine.execWrAcc d s
  | .ckbyte d => Sys2Proof.Machine.execCkbyte d s
  | .wrRxck d => Sys2Proof.Machine.execWrRxck d s
  | .wrRsvd a d => Sys2Proof.Machine.execWrRsvd a d s
  | .wrOfsLo d => Sys2Proof.Machine.execWrOfsLo d s
  | .wrOfsHi d => Sys2Proof.Machine.execWrOfsHi d s
  | .wrHdrStart d => Sys2Proof.Machine.execWrHdrStart d s
  | .wrHdrDevice d => Sys2Proof.Machine.execWrHdrDevice d s
  | .wrHdrAddress d => Sys2Proof.Machine.execWrHdrAddress d s
  | .wrHdrCommand d => Sys2Proof.Machine.execWrHdrCommand d s
  | .wrHdrItem d => Sys2Proof.Machine.execWrHdrItem d s
  | .wrHdrLength d => Sys2Proof.Machine.execWrHdrLength d s
  | .wrPbuf n d => Sys2Proof.Machine.execWrPbuf n d s
  | .rdCtrl => Sys2Proof.Machine.execRdCtrl s
  | .rdStatus => Sys2Proof.Machine.execRdStatus s
  | .rdAcc => Sys2Proof.Machine.execRdAcc s
  | .rdCkdata => Sys2Proof.Machine.execRdCkdata s
  | .rdRxck => Sys2Proof.Machine.execRdRxck s
  | .rdRsvd a => Sys2Proof.Machine.execRdRsvd a s
  | .rdOfsLo => Sys2Proof.Machine.execRdOfsLo s
  | .rdOfsHi => Sys2Proof.Machine.execRdOfsHi s
  | .rdHdrStart => Sys2Proof.Machine.execRdHdrStart s
  | .rdHdrDevice => Sys2Proof.Machine.execRdHdrDevice s
  | .rdHdrAddress => Sys2Proof.Machine.execRdHdrAddress s
  | .rdHdrCommand => Sys2Proof.Machine.execRdHdrCommand s
  | .rdHdrItem => Sys2Proof.Machine.execRdHdrItem s
  | .rdHdrLength => Sys2Proof.Machine.execRdHdrLength s
  | .rdPbuf n => Sys2Proof.Machine.execRdPbuf n s

end Sys2Proof.Machine
end

