-- ==== Sys2Proof/Machine/Events.lean ====
section
/-! DEFINITION. The events of spec/10_state.md R32: taking the environment's next one and performing it. -/

namespace Sys2Proof.Machine

/-- The environment's next event, and the state once it is taken from the agenda (log 3). -/
def State.nextEvent (s : State) : Option (Event × State) :=
  match s.agenda with
  | [] => none
  | e :: rest => some (e, { s with agenda := rest, tick := s.tick + 1 })

/-- Perform one event (R32): a host access is decoded and executed (R59), the others step the block. -/
def performEvent (e : Event) (s : State) : Host.Outcome State Fault Refusal :=
  match e with
  | .host w => exec (decode w) s
  | .txAccept => .next s.txAccept
  | .rxOffer => .next s.rxOffer
  | .reset => .next s.resetBlock

/-- The host places the access `w` on the port, ahead of everything else (log 3). -/
def State.offerWord (w : HostWord) (s : State) : State :=
  { s with agenda := .host w :: s.agenda }

end Sys2Proof.Machine
end

