-- ==== Sys2Proof/Machine/Step.lean ====
section
/-! DEFINITION. One step: the environment's next event (spec/00_scope.md R9; spec/10_state.md R32). -/

namespace Sys2Proof.Machine

/-- One step is exactly one event (R32). With no event the block "holds its state" (R214; log 3). -/
def step (s : State) : Host.Outcome State Fault Refusal :=
  match s.nextEvent with
  | none => .next s
  | some (e, t) => performEvent e t

/-- The state in which the host makes, as the next event, the access that the low `nbits` bits of `w` spell (log 3);
the state itself where they spell no host word. -/
def State.withFetchWord (s : State) (nbits w : Nat) : State :=
  match hostWordOf nbits w with
  | .ok word => s.offerWord word
  | .error _ => s

end Sys2Proof.Machine
end

