-- ==== Sys2Proof/Safety.lean ====
section
/-! DEFINITION. The terms of safety claims: what spec/92_eei_decisions.md D36 calls a program fault, and the invariant
of the reachable states (spec/10_state.md R22, R27, R28; spec/43_register_access.md R171). -/

namespace Sys2Proof.Safety

open Sys2Proof.Machine

/-! ## Program faults (D36): the host's program relies on a value nothing fixed. The block itself goes on (R200). -/

/-- The register a read returns, for the reads that return one (R172 to R176); the always-defined reads have none (R171,
R177). -/
def readRegister (i : Instr) (s : State) : Option Reg :=
  match i with
  | .rdAcc => some s.acc
  | .rdRxck => some s.rxck
  | .rdOfsLo => some s.ofsLo
  | .rdOfsHi => some s.ofsHi
  | .rdHdrStart => some s.hdr.start
  | .rdHdrDevice => some s.hdr.device
  | .rdHdrAddress => some s.hdr.address
  | .rdHdrCommand => some s.hdr.command
  | .rdHdrItem => some s.hdr.item
  | .rdHdrLength => some s.hdr.length
  | .rdPbuf n => some (s.pbuf.read n.toNat)
  | .rdCtrl | .rdStatus | .rdCkdata | .rdRsvd _ => none
  | .ckclr | .enc | .encP | .dec | .ctrlRsvd _ | .ckbyte _ => none
  | .wrStatus _ | .wrAcc _ | .wrRxck _ | .wrRsvd _ _ | .wrOfsLo _ | .wrOfsHi _ => none
  | .wrHdrStart _ | .wrHdrDevice _ | .wrHdrAddress _ | .wrHdrCommand _ | .wrHdrItem _ | .wrHdrLength _ => none
  | .wrPbuf _ _ => none

/-- The writes that are a hazard while busy: to `CTRL`, `CKDATA`, `HDR` and `PBUF` (R181, R234). -/
def isGuardedWrite (i : Instr) : Bool :=
  match i with
  | .ckclr | .enc | .encP | .dec | .ctrlRsvd _ | .ckbyte _ => true
  | .wrHdrStart _ | .wrHdrDevice _ | .wrHdrAddress _ | .wrHdrCommand _ | .wrHdrItem _ | .wrHdrLength _ => true
  | .wrPbuf _ _ => true
  | .wrStatus _ | .wrAcc _ | .wrRxck _ | .wrRsvd _ _ | .wrOfsLo _ | .wrOfsHi _ => false
  | .rdCtrl | .rdStatus | .rdAcc | .rdCkdata | .rdRxck | .rdRsvd _ | .rdOfsLo | .rdOfsHi => false
  | .rdHdrStart | .rdHdrDevice | .rdHdrAddress | .rdHdrCommand | .rdHdrItem | .rdHdrLength | .rdPbuf _ => false

/-- The instruction starts an encode (R120). -/
def isEncode (i : Instr) : Bool := i == .enc || i == .encP

/-- Why a model stops where D36 says that it does: the host's program relies on what nothing fixes. -/
inductive ProgramFault where
  /-- Raised by `checkedStep` for a host read of an `UNSPEC` register, or of any register while busy (R30, R170; U1 to
  U3, U5). Safe: nothing is claimed of the value. -/
  | readsUnspec
  /-- Raised by `checkedStep` at the acceptance of an encode whose `HDR[5]` is `UNSPEC` (R120; U1). Safe: nothing is
  claimed of the outcome. -/
  | encodesUnspecLength
  /-- Raised by `checkedStep` at the transmission of an `UNSPEC` byte (R30, R124; U1). Safe: nothing is claimed of the
  frame. -/
  | sendsUnspec
  /-- Raised by `checkedStep` for a write to `CTRL`, `CKDATA`, `HDR` or `PBUF` while busy (R234; U6). Safe: "No claim
  survives it". -/
  | writesWhileBusy
deriving DecidableEq, Repr

/-- The program fault that the access is in state `s`, if it is one. -/
def accessFaultOf (i : Instr) (s : State) : Option ProgramFault :=
  if (isGuardedWrite i && s.busy) = true then some .writesWhileBusy
  else if (isEncode i && s.hdr.length == .unspec) = true then some .encodesUnspecLength
  else
    match readRegister i s with
    | some r => if (s.busy || r == .unspec) = true then some .readsUnspec else none
    | none => none

/-- The access is a program fault in state `s`: it reads `UNSPEC` (U1 to U3, U5), writes while busy (U6), or starts an
encode whose length is `UNSPEC` (U1). -/
def accessFault (i : Instr) (s : State) : Bool := (accessFaultOf i s).isSome

/-- The program fault that the coming step is, if it is one: a host access of that kind, or the transmission of an
`UNSPEC` byte (R124). -/
def programFaultOf (s : State) : Option ProgramFault :=
  match s.nextEvent with
  | some (.host w, t) => accessFaultOf (decode w) t
  | some (.txAccept, t) => if t.txReg = some .unspec then some .sendsUnspec else none
  | some (.rxOffer, _) => none
  | some (.reset, _) => none
  | none => none

/-- The coming step is a program fault. -/
def programFault (s : State) : Bool := (programFaultOf s).isSome

/-- THE STEP THAT STOPS (D36, R30, R120, R124, R234): a program fault where the coming step is one, and the block's own
step otherwise. The block itself "never halts" (R200), so `Machine.step` goes on where this one stops (log 13). -/
def checkedStep (s : State) : Host.Outcome State ProgramFault Refusal :=
  match programFaultOf s with
  | some f => .fault f
  | none =>
    match step s with
    | .next t => .next t
    | .fault f => nomatch f
    | .refused r => .refused r

/-- The machine whose step stops at program faults. -/
def checkedCore : Host.Core :=
  { State := State, Fault := ProgramFault, Refusal := Refusal, step := checkedStep, reset := State.reset }

/-- None of the next `k` steps is a program fault. -/
def cleanRun (k : Nat) (s : State) : Bool :=
  match k with
  | 0 => true
  | k + 1 =>
    !programFault s &&
      match step s with
      | .next t => cleanRun k t
      | .fault _ => false
      | .refused _ => false

/-! ## Definedness: what a running command's sequencing rests on -/

/-- The registers that decide how a running command goes on hold bytes: `HDR[5]` of an encode (R125, R126); of a decode,
`HDR[0]` once it is received, `HDR[5]` after the header check, and `ACC` (R142 to R146). Only a program fault takes this
away (R30, R234; log 6). -/
def definedRunning (s : State) : Bool :=
  match s.phase with
  | .idle | .encCk => true
  | .encHdr | .encPay => s.hdr.length != .unspec
  | .decHdr => s.acc != .unspec && (s.idx == 0 || s.hdr.start != .unspec)
  | .decOfs | .decPay | .decCk => s.acc != .unspec && s.hdr.length != .unspec

/-! ## The invariant -/

/-- R28 and R171: `OK` and `FAIL` exclude each other, both and `ERR` are 0 while busy, `ERR` is 0 exactly when `FAIL` is,
and is never the reserved 7. -/
def statusLegal (s : State) : Bool :=
  !(s.ok && s.fail) && (!s.busy || (!s.ok && !s.fail)) && (s.fail == (s.err != 0)) && s.err != 7

/-- The header length is in `lo..120`, or `UNSPEC`. -/
def lengthWithin (lo : Nat) (s : State) : Bool :=
  match s.hdr.length with
  | .val b => decide (lo ≤ b.toNat) && decide (b.toNat ≤ Config.maxPayload)
  | .unspec => true

/-- The bounds of R22 on `IDX`, with the length bound that the accepted or checked header has (R120, R142). Where
`HDR[5]` is `UNSPEC` the index is bounded by the largest payload (log 6). -/
def sequencerLegal (s : State) : Bool :=
  match s.phase with
  | .idle => decide (s.idx = 0)
  | .encHdr => decide (s.idx.toNat ≤ 5) && lengthWithin 0 s
  | .encPay => decide (s.idx.toNat ≤ 119) && lengthWithin (s.idx.toNat + 1) s
  | .encCk => decide (s.idx = 0) && lengthWithin 0 s
  | .decHdr => decide (s.idx.toNat ≤ 5)
  | .decOfs => decide (s.idx.toNat ≤ 1) && lengthWithin 2 s
  | .decPay => decide (s.idx.toNat ≤ 117) && lengthWithin (s.idx.toNat + 3) s
  | .decCk => decide (s.idx = 0) && lengthWithin 0 s

/-- A running encode has the marker in `HDR[0]` (R120), unless a busy write made it `UNSPEC` (R234). -/
def markerLegal (s : State) : Bool :=
  match s.phase with
  | .encHdr | .encPay | .encCk => s.hdr.start == .val Config.startMarker || s.hdr.start == .unspec
  | .idle | .decHdr | .decOfs | .decPay | .decCk => true

/-- The invariant of the machine. -/
def inv (s : State) : Bool :=
  s.pbuf.wf && statusLegal s && sequencerLegal s && markerLegal s

/-! ## Frames -/

/-- The covered bytes of a frame: header, then the `length` bytes that follow it (R76, R101). -/
def covered (device address command item : Byte) (body : List Byte) : List Byte :=
  [Config.startMarker, device, address, command, item, BitVec.ofNat 8 body.length] ++ body

/-- Format F (R76, R128): the covered bytes and their checksum. -/
def frame (device address command item : Byte) (body : List Byte) : List Byte :=
  covered device address command item body ++ [ck8 (covered device address command item body)]

/-- The bytes as receive events (R57). -/
def delivered (bytes : List Byte) : List RxEvent := bytes.map .byte

/-- The machine is idle and its header registers and payload buffer hold this frame's fields (R233): what the host must
have written before `ENC`. -/
structure Loaded (s : State) (device address command item : Byte) (body : List Byte) : Prop where
  idle : s.phase = .idle
  short : body.length ≤ Config.maxPayload
  device : s.hdr.device = .val device
  address : s.hdr.address = .val address
  command : s.hdr.command = .val command
  item : s.hdr.item = .val item
  length : s.hdr.length = .val (BitVec.ofNat 8 body.length)
  payload : ∀ k (h : k < body.length), s.pbuf.read k = .val body[k]

/-- The word starts an encode of this body: `ENC.P`, or `ENC` where there is no payload (R120, R122). -/
def StartsEncode (w : HostWord) (body : List Byte) : Prop :=
  decode w = .encP ∨ (decode w = .enc ∧ body = [])

end Sys2Proof.Safety
end

