-- ==== Sys2Proof/Certificates/Slice0/Obligations.lean ====
section
/-! DEFINITION. The statements for the provers, from the numbered rules of spec/. -/

open Sys2Proof Sys2Proof.Machine Sys2Proof.Safety

/-! ## Encoding (spec/30_encoding.md) -/

/-- Decoding the word of a well-formed instruction gives the instruction back, with every operand at every value. -/
def Obligations.DecodeOfEncode : Prop :=
  ∀ i : Instr, i.wellFormed = true → decode (encode i) = i

/-- Encoding what a word decodes to gives the word back, but for the ignored `D` bits of a read, which become 0 (R70). -/
def Obligations.EncodeOfDecode : Prop :=
  ∀ w : HostWord,
    encode (decode w) = if wordIsWrite w = true then w else hostWord false (wordAddress w) 0

/-- Every 17-bit word matches exactly one row of the opcode table, decodes to that row's instruction, and to a
well-formed one; and `D` selects only in a write to `CTRL` (R75). -/
def Obligations.EveryWordDecodesToItsOneRow : Prop :=
  (∀ w : HostWord, ∃ r : OpcodeRow, opcodeTable.filter (fun x => x.matchesWord w) = [r] ∧
      (decode w).mnemonic = r.mnemonic ∧ (decode w).wellFormed = true) ∧
  (∀ (isWrite : Bool) (a d d' : Byte), (isWrite = false ∨ a ≠ 0x00) →
      (decode (hostWord isWrite a d)).mnemonic = (decode (hostWord isWrite a d')).mnemonic)

/-- Words of the assembler table R80, the vectors and the programs decode to the instructions they stand for. -/
def Obligations.SpecWordsDecode : Prop :=
  decode 0x10001 = .ckclr ∧ decode 0x10002 = .enc ∧ decode 0x10012 = .encP ∧ decode 0x10003 = .dec ∧
  decode 0x10013 = .ctrlRsvd 0x13 ∧ decode 0x10312 = .ckbyte 0x12 ∧ decode 0x10D03 = .wrHdrLength 0x03 ∧
  decode 0x1821A = .wrPbuf 2 0x1A ∧ decode 0x1FF5A = .wrPbuf 127 0x5A ∧ decode 0x101FF = .wrStatus 0xFF ∧
  decode 0x00100 = .rdStatus ∧ decode 0x00400 = .rdRxck ∧ decode 0x04000 = .rdRsvd 0x40 ∧
  decode 0x00500 = .rdRsvd 0x05 ∧ decode 0x0FF00 = .rdPbuf 127

/-! ## Steps (spec/00_scope.md R9, spec/10_state.md R32) -/

/-- A step whose event is a host access runs the decoded instruction; the model's step has taken the access from the
agenda and counted the event. `withFetchWord` places such an access. -/
def Obligations.StepRunsDecodedHostWord : Prop :=
  (∀ (s : State) (w : HostWord) (rest : List Event), s.agenda = .host w :: rest →
      step s = exec (decode w) { s with agenda := rest, tick := s.tick + 1 }) ∧
  (∀ (s : State) (nbits w : Nat) (i : Instr), decodeTableWord nbits w = some i →
      step (s.withFetchWord nbits w) = exec i { s with tick := s.tick + 1 })

/-- With no event the block holds its state (R214). -/
def Obligations.NoEventHoldsState : Prop :=
  ∀ s : State, s.agenda = [] → step s = .next s

/-- The block never traps and never halts (R200): every run of any length from any state reaches a next state. That this
takes in the uses of `UNSPEC` and the busy writes, where R30, R120 and R234 advise a model to stop, is THE MODEL'S CHOICE
(logs 1, 5, 6, 13); `Safety.checkedStep` is the step that stops there. -/
def Obligations.EveryRunGoesOn : Prop :=
  ∀ (k : Nat) (s : State), ∃ t : State, Host.Core.run Sys2Proof.core k s = .next t

/-! ## Checksum unit (spec/40_checksum.md) -/

/-- `CKCLR`, word 0x10001, while idle clears `ACC` and completes with `OK`; nothing else changes (R102, R206). -/
def Obligations.CkclrClears : Prop :=
  decode 0x10001 = .ckclr ∧ ∀ s : State, s.phase = .idle → ∃ t,
    exec .ckclr s = .next t ∧ t.statusByte = 0x02 ∧
    t = { s with acc := .val 0x00, idx := 0, ok := true, fail := false, err := 0 }

/-- `CKBYTE d` while idle subtracts `d` from `ACC` mod 256, leaves an `UNSPEC` `ACC` `UNSPEC`, and changes nothing else,
`STATUS` included (R103, R107). -/
def Obligations.CkbyteSubtracts : Prop :=
  ∀ (s : State) (d : Byte), s.phase = .idle →
    (∀ a : Byte, s.acc = .val a →
      exec (.ckbyte d) s = .next { s with acc := .val (BitVec.ofNat 8 ((a.toNat + 256 - d.toNat) % 256)) }) ∧
    (s.acc = .unspec → exec (.ckbyte d) s = .next s)

/-- After `CKCLR` and `CKBYTE d1 … dn`, `ACC` is `ck8 [d1, …, dn]`; feeding that checksum as well leaves 0 (R103). -/
def Obligations.ByteStreamComputesChecksum : Prop :=
  ∀ (s : State) (bytes : List Byte) (rest : List Event), s.phase = .idle →
    s.agenda = .host (encode .ckclr) :: (bytes.map (fun d => Event.host (encode (.ckbyte d)))
      ++ .host (encode (.ckbyte (ck8 bytes))) :: rest) →
    (∃ t : State, Host.Core.run Sys2Proof.core (1 + bytes.length) s = .next t ∧
      t.acc = .val (ck8 bytes) ∧ t.statusByte = 0x02) ∧
    (∃ u : State, Host.Core.run Sys2Proof.core (2 + bytes.length) s = .next u ∧
      u = { s with acc := .val 0x00, idx := 0, ok := true, fail := false, err := 0, agenda := rest,
                   tick := s.tick + (2 + bytes.length) })

/-- The two descriptions of the checksum agree: `(0 − Σ s) mod 256`, and an accumulator started at 0 from which each byte
is subtracted; the empty sequence gives 0 (R100). -/
def Obligations.ChecksumDescriptionsAgree : Prop :=
  (∀ bytes : List Byte,
    ((ck8 bytes).toNat : Int) = (0 - (byteSum bytes : Int)) % 256 ∧
    (ck8 bytes).toNat = (256 - byteSum bytes % 256) % 256 ∧
    bytes.foldl (fun acc b => acc - b) 0x00 = ck8 bytes) ∧
  ck8 [] = 0x00

/-- The checksum is the same in any order of the covered bytes (R101). -/
def Obligations.ChecksumIgnoresOrder : Prop :=
  ∀ s t : List Byte, s.Perm t → ck8 s = ck8 t

/-- `c` is the checksum of `s` exactly when all bytes, `c` included, sum to 0 mod 256 (R105). -/
def Obligations.ValidationLaw : Prop :=
  ∀ (s : List Byte) (c : Byte), c = ck8 s ↔ (byteSum s + c.toNat) % 256 = 0

/-- Flipping one bit of one covered byte, or of the checksum byte, breaks the R105 test (R106). -/
def Obligations.SingleBitFlipDetected : Prop :=
  ∀ (before after : List Byte) (b c : Byte) (k : Nat), k < 8 →
    ck8 (before ++ b :: after) ≠ ck8 (before ++ (b ^^^ (1#8 <<< k)) :: after) ∧
    (c = ck8 before → c ^^^ (1#8 <<< k) ≠ ck8 before)

/-! ## Frame encode (spec/41_frame_encode.md) -/

/-- `ENC.P` with `L ≤ 120`, and `ENC` with `L = 0`, while idle: `HDR[0]` becomes the marker, `ACC` and `IDX` 0, the phase
`ENC_HDR`, the status busy; nothing else changes (R120). -/
def Obligations.EncodeStarts : Prop :=
  ∀ (s : State) (len : Byte), s.phase = .idle → s.hdr.length = .val len → len.toNat ≤ Config.maxPayload →
    let started := { s with hdr := { s.hdr with start := .val Config.startMarker }, acc := .val 0x00, idx := 0,
                            phase := .encHdr, ok := false, fail := false, err := 0 }
    exec .encP s = .next started ∧ (len = 0 → exec .enc s = .next started) ∧ started.statusByte = 0x01

/-- `ENC` and `ENC.P` with `L > 120` fail with `LENGTH` at acceptance, whatever `P` is: `STATUS` reads 0x14, `HDR[0]` is
its old value or the marker, nothing else changes and nothing is sent (R120, R121, R203). -/
def Obligations.EncodeLengthFailure : Prop :=
  ∀ (s : State) (len : Byte), s.phase = .idle → s.hdr.length = .val len → Config.maxPayload < len.toNat →
    ∀ i : Instr, i = .enc ∨ i = .encP → ∃ start,
      (start = s.hdr.start ∨ start = .val Config.startMarker) ∧
      exec i s = .next { s with hdr := { s.hdr with start := start }, idx := 0, ok := false, fail := true, err := 1 }

/-- `ENC` with `0 < L ≤ 120` fails with `NOPAYLOAD` at acceptance (R120 to R122, R203). -/
def Obligations.EncodeNoPayloadFailure : Prop :=
  ∀ (s : State) (len : Byte), s.phase = .idle → s.hdr.length = .val len → 0 < len.toNat →
    len.toNat ≤ Config.maxPayload → ∃ start,
      (start = s.hdr.start ∨ start = .val Config.startMarker) ∧
      exec .enc s = .next { s with hdr := { s.hdr with start := start }, idx := 0, ok := false, fail := true, err := 2 }

/-- THE MODEL'S CHOICE (log 6): an encode whose `HDR[5]` is `UNSPEC` runs on a free length, so its state is that of one of
the three outcomes of R120 and which one is not fixed; with `P = 1` `NOPAYLOAD` is not among them. -/
def Obligations.EncodeOnUnspecLength : Prop :=
  ∀ s : State, s.phase = .idle → s.hdr.length = .unspec →
    ∀ i : Instr, i = .enc ∨ i = .encP → ∃ t start,
      exec i s = .next t ∧
      (start = s.hdr.start ∨ start = .val Config.startMarker) ∧
      (t = { s with hdr := { s.hdr with start := .val Config.startMarker }, acc := .val 0x00, idx := 0,
                    phase := .encHdr, ok := false, fail := false, err := 0 } ∨
       t = { s with hdr := { s.hdr with start := start }, idx := 0, ok := false, fail := true, err := 1 } ∨
       (i = .enc ∧
        t = { s with hdr := { s.hdr with start := start }, idx := 0, ok := false, fail := true, err := 2 }))

/-- `TxAccept` in `ENC_HDR`: header byte `IDX` moves to the consumer and is subtracted; after byte 5 the payload follows,
or the checksum where `L = 0` (R124, R125). -/
def Obligations.TxHeaderByte : Prop :=
  ∀ (s : State) (a b len : Byte) (rest : List Event),
    s.agenda = .txAccept :: rest → s.phase = .encHdr → s.idx.toNat ≤ 5 → s.acc = .val a →
    s.hdr.get (hdrFieldOf s.idx.toNat) = .val b → s.hdr.length = .val len →
    step s = .next { s with
      acc := .val (a - b), tx := s.tx ++ [b], agenda := rest, tick := s.tick + 1,
      idx := if s.idx.toNat < 5 then s.idx + 1 else 0,
      phase := if s.idx.toNat < 5 then .encHdr else if len = 0 then .encCk else .encPay }

/-- `TxAccept` in `ENC_PAY`: payload byte `IDX` moves to the consumer and is subtracted; after byte `L − 1` the checksum
follows (R124, R126). -/
def Obligations.TxPayloadByte : Prop :=
  ∀ (s : State) (a b len : Byte) (rest : List Event),
    s.agenda = .txAccept :: rest → s.phase = .encPay → s.acc = .val a → s.hdr.length = .val len →
    s.idx.toNat < len.toNat → s.pbuf.read s.idx.toNat = .val b →
    step s = .next { s with
      acc := .val (a - b), tx := s.tx ++ [b], agenda := rest, tick := s.tick + 1,
      idx := if s.idx.toNat < len.toNat - 1 then s.idx + 1 else 0,
      phase := if s.idx.toNat < len.toNat - 1 then .encPay else .encCk }

/-- `TxAccept` in `ENC_CK`: the accumulator's byte moves to the consumer and the encode completes with `OK`; `ACC` keeps
it (R124, R127, R206). -/
def Obligations.TxChecksumByte : Prop :=
  ∀ (s : State) (a : Byte) (rest : List Event),
    s.agenda = .txAccept :: rest → s.phase = .encCk → s.acc = .val a → ∃ t,
      step s = .next t ∧ t.statusByte = 0x02 ∧
      t = { s with phase := .idle, idx := 0, ok := true, fail := false, err := 0, tx := s.tx ++ [a], agenda := rest,
                   tick := s.tick + 1 }

/-- Where the byte that must be sent or `ACC` is `UNSPEC` (R30 case 2, R124): the byte sent is the register's own if it
holds one and some byte if not, `ACC` is then `UNSPEC`, the sequencer and the status move as after any byte (R125 to
R127), and nothing else changes. That the block goes on here is THE MODEL'S CHOICE (log 1), and where `HDR[5]` is `UNSPEC`
which of the two ways a phase may go on is not fixed (log 6). -/
def Obligations.TxUnspecByte : Prop :=
  ∀ (s : State) (r : Reg) (rest : List Event),
    s.agenda = .txAccept :: rest → s.txReg = some r → r = .unspec ∨ s.acc = .unspec → ∃ b t,
      step s = .next t ∧ (∀ x, r = .val x → b = x) ∧
      t = { s with acc := .unspec, tx := s.tx ++ [b], agenda := rest, tick := s.tick + 1,
                   phase := t.phase, idx := t.idx, ok := t.ok, fail := t.fail, err := t.err } ∧
      (s.phase = .encHdr → t.ok = s.ok ∧ t.fail = s.fail ∧ t.err = s.err ∧
        (s.idx.toNat < 5 → t.phase = .encHdr ∧ t.idx = s.idx + 1) ∧
        (5 ≤ s.idx.toNat → t.idx = 0 ∧ (t.phase = .encCk ∨ t.phase = .encPay) ∧
          ∀ len, s.hdr.length = .val len → t.phase = if len = 0 then .encCk else .encPay)) ∧
      (s.phase = .encPay → t.ok = s.ok ∧ t.fail = s.fail ∧ t.err = s.err ∧
        ((t.phase = .encPay ∧ t.idx = s.idx + 1) ∨ (t.phase = .encCk ∧ t.idx = 0)) ∧
        ∀ len, s.hdr.length = .val len → s.idx.toNat < len.toNat →
          (t.phase = .encPay ↔ s.idx.toNat < len.toNat - 1)) ∧
      (s.phase = .encCk → t.phase = .idle ∧ t.idx = 0 ∧ t.statusByte = 0x02)

/-- Outside the `ENC_*` phases no byte is presented and an acceptance has no effect (R56). -/
def Obligations.TxNotEnabledOutsideEncode : Prop :=
  ∀ (s : State) (rest : List Event), s.agenda = .txAccept :: rest →
    s.phase ≠ .encHdr → s.phase ≠ .encPay → s.phase ≠ .encCk →
    step s = .next { s with agenda := rest, tick := s.tick + 1 }

/-- THE FRAME PRODUCED (R128, R129): from a loaded idle machine, the encode command and `6 + L + 1` acceptances, with no
other event among them, send exactly the frame, leave `ACC` at its checksum and `OK` set, and change of the registers only
`HDR[0]`, `ACC`, `PHASE`, `IDX` and `STATUS`. -/
def Obligations.EncodeSendsFrame : Prop :=
  ∀ (s : State) (device address command item : Byte) (body : List Byte) (w : HostWord) (rest : List Event),
    Loaded s device address command item body → StartsEncode w body →
    s.agenda = .host w :: (List.replicate (6 + body.length + 1) .txAccept ++ rest) →
    Host.Core.run Sys2Proof.core (1 + (6 + body.length + 1)) s = .next
      { s with
        phase := .idle, idx := 0, ok := true, fail := false, err := 0,
        hdr := { s.hdr with start := .val Config.startMarker },
        acc := .val (ck8 (covered device address command item body)),
        tx := s.tx ++ frame device address command item body,
        agenda := rest, tick := s.tick + (1 + (6 + body.length + 1)) }

/-- While the frame leaves, the status is busy and the bytes taken so far are the frame's first ones (R123, R128). -/
def Obligations.EncodeBusyUntilLastByte : Prop :=
  ∀ (s : State) (device address command item : Byte) (body : List Byte) (w : HostWord) (rest : List Event) (k : Nat),
    Loaded s device address command item body → StartsEncode w body →
    s.agenda = .host w :: (List.replicate k .txAccept ++ rest) → k < 6 + body.length + 1 → ∃ t : State,
      Host.Core.run Sys2Proof.core (1 + k) s = .next t ∧
      t.tx = s.tx ++ (frame device address command item body).take k ∧ t.statusByte = 0x01

/-! ## Frame decode (spec/42_frame_decode.md) -/

/-- `DEC`, word 0x10003, while idle: `ACC` and `IDX` 0, the phase `DEC_HDR`, the status busy; nothing else changes (R140). -/
def Obligations.DecodeStarts : Prop :=
  decode 0x10003 = .dec ∧ ∀ s : State, s.phase = .idle → ∃ t,
    exec .dec s = .next t ∧ t.statusByte = 0x01 ∧
    t = { s with acc := .val 0x00, idx := 0, phase := .decHdr, ok := false, fail := false, err := 0 }

/-- `RxByte b` in `DEC_HDR` before byte 5: stored in `HDR[IDX]` and subtracted, with no check (R141). -/
def Obligations.RxHeaderByte : Prop :=
  ∀ (s : State) (a b : Byte) (more : List RxEvent) (rest : List Event),
    s.agenda = .rxOffer :: rest → s.rx = .byte b :: more → s.phase = .decHdr → s.idx.toNat < 5 → s.acc = .val a →
    step s = .next { s with
      hdr := s.hdr.set (hdrFieldOf s.idx.toNat) (.val b), acc := .val (a - b), idx := s.idx + 1,
      rx := more, agenda := rest, tick := s.tick + 1 }

/-- The sixth header byte brings the header check (R142) and the body selection (R143): a wrong marker fails with
`MARKER`, else `length` above 120 with `LENGTH`, else the offset follows if `length ≥ 2` and the checksum if not. -/
def Obligations.HeaderCheckAndBodySelection : Prop :=
  ∀ (s : State) (a b start : Byte) (more : List RxEvent) (rest : List Event),
    s.agenda = .rxOffer :: rest → s.rx = .byte b :: more → s.phase = .decHdr → s.idx = 5 → s.acc = .val a →
    s.hdr.start = .val start → ∃ t, step s = .next t ∧ t.rx = more ∧ t.agenda = rest ∧ t.tx = s.tx ∧
      (if start ≠ Config.startMarker then t.phase = .idle ∧ t.statusByte = 0x44
       else if Config.maxPayload < b.toNat then t.phase = .idle ∧ t.statusByte = 0x14
       else t = { s with hdr := { s.hdr with length := .val b }, acc := .val (a - b), idx := 0,
                         phase := if 2 ≤ b.toNat then .decOfs else .decCk,
                         rx := more, agenda := rest, tick := s.tick + 1 })

/-- `RxByte b` in `DEC_OFS`: `offset_lo`, then `offset_hi`, each subtracted; then the payload, or the checksum where
`L = 2` (R144). -/
def Obligations.RxOffsetByte : Prop :=
  ∀ (s : State) (a b len : Byte) (more : List RxEvent) (rest : List Event),
    s.agenda = .rxOffer :: rest → s.rx = .byte b :: more → s.phase = .decOfs → s.acc = .val a →
    s.hdr.length = .val len →
    (s.idx = 0 → step s = .next { s with
      ofsLo := .val b, acc := .val (a - b), idx := 1, rx := more, agenda := rest, tick := s.tick + 1 }) ∧
    (s.idx = 1 → step s = .next { s with
      ofsHi := .val b, acc := .val (a - b), idx := 0, phase := if 2 < len.toNat then .decPay else .decCk,
      rx := more, agenda := rest, tick := s.tick + 1 })

/-- `RxByte b` in `DEC_PAY`: stored in `PBUF[IDX]` alone and subtracted; after byte `L − 3` the checksum follows (R145). -/
def Obligations.RxPayloadByte : Prop :=
  ∀ (s : State) (a b len : Byte) (more : List RxEvent) (rest : List Event),
    s.agenda = .rxOffer :: rest → s.rx = .byte b :: more → s.phase = .decPay → s.acc = .val a →
    s.hdr.length = .val len → s.idx.toNat + 2 < len.toNat → ∃ t, step s = .next t ∧
      (∀ k, t.pbuf.read k = if k = s.idx.toNat then .val b else s.pbuf.read k) ∧
      t = { s with
        pbuf := t.pbuf, acc := .val (a - b), idx := if s.idx.toNat < len.toNat - 3 then s.idx + 1 else 0,
        phase := if s.idx.toNat < len.toNat - 3 then .decPay else .decCk,
        rx := more, agenda := rest, tick := s.tick + 1 }

/-- `RxByte b` in `DEC_CK`: the byte goes to `RXCK` and completes the decode, with `OK` if it equals `ACC` and with
`CHECKSUM` if not (R146); `OFS` is `UNSPEC` after a success with `L < 2` (R149). -/
def Obligations.RxChecksumByte : Prop :=
  ∀ (s : State) (a b len : Byte) (more : List RxEvent) (rest : List Event),
    s.agenda = .rxOffer :: rest → s.rx = .byte b :: more → s.phase = .decCk → s.acc = .val a →
    s.hdr.length = .val len → ∃ t, step s = .next t ∧ t.rx = more ∧ t.phase = .idle ∧
      (if a = b then t.statusByte = 0x02 ∧ t = { s with
          rxck := .val b, phase := .idle, idx := 0, ok := true, fail := false, err := 0,
          ofsLo := if len.toNat < 2 then .unspec else s.ofsLo, ofsHi := if len.toNat < 2 then .unspec else s.ofsHi,
          rx := more, agenda := rest, tick := s.tick + 1 }
       else t.statusByte = 0x54)

/-- `RxEos` in a `DEC_*` phase fails with `SHORT`, `STATUS` 0x34, and is used up; outside them it has no effect and is
discarded (R57, R147). -/
def Obligations.ShortReadFailsDecode : Prop :=
  ∀ (s : State) (more : List RxEvent) (rest : List Event), s.agenda = .rxOffer :: rest → s.rx = .eos :: more →
    (s.rxReady = true → ∃ t, step s = .next t ∧ t.phase = .idle ∧ t.idx = 0 ∧ t.statusByte = 0x34 ∧ t.rx = more) ∧
    (s.rxReady = false → step s = .next { s with rx := more, agenda := rest, tick := s.tick + 1 })

/-- Outside the `DEC_*` phases a byte stays with the producer, unconsumed (R57). -/
def Obligations.RxByteWaitsOutsideDecode : Prop :=
  ∀ (s : State) (b : Byte) (more : List RxEvent) (rest : List Event),
    s.agenda = .rxOffer :: rest → s.rx = .byte b :: more →
    s.phase = .idle ∨ s.phase = .encHdr ∨ s.phase = .encPay ∨ s.phase = .encCk →
    step s = .next { s with agenda := rest, tick := s.tick + 1 }

/-- THE FRAME ACCEPTED (R149): `DEC` and the bytes of a valid frame with `L = 0` or `2 ≤ L ≤ 120` end with `OK`, the
received header, the offset field and `L − 2` payload bytes in their registers and the rest of `PBUF` unchanged; exactly
the frame is consumed (R148). -/
def Obligations.DecodeAcceptsFrame : Prop :=
  ∀ (s : State) (device address command item : Byte) (body : List Byte) (more : List RxEvent) (rest : List Event),
    s.phase = .idle → body.length ≠ 1 → body.length ≤ Config.maxPayload →
    s.rx = delivered (frame device address command item body) ++ more →
    s.agenda = .host (encode .dec) :: (List.replicate (6 + body.length + 1) .rxOffer ++ rest) → ∃ t : State,
      Host.Core.run Sys2Proof.core (1 + (6 + body.length + 1)) s = .next t ∧ t.statusByte = 0x02 ∧
      (∀ k, t.pbuf.read k = if h : k + 2 < body.length then .val body[k + 2] else s.pbuf.read k) ∧
      t = { s with
        phase := .idle, idx := 0, ok := true, fail := false, err := 0,
        hdr := { start := .val Config.startMarker, device := .val device, address := .val address,
                 command := .val command, item := .val item, length := .val (BitVec.ofNat 8 body.length) },
        ofsLo := if h : 2 ≤ body.length then .val body[0] else .unspec,
        ofsHi := if h : 2 ≤ body.length then .val body[1] else .unspec,
        acc := .val (ck8 (covered device address command item body)),
        rxck := .val (ck8 (covered device address command item body)),
        pbuf := t.pbuf, rx := more, agenda := rest, tick := s.tick + (1 + (6 + body.length + 1)) }

/-- THE FRAME REJECTED (R146, R150): the same frame with any other checksum byte ends with `CHECKSUM` after the same
number of bytes, and `HDR`, `OFS`, `RXCK`, `ACC` and `PBUF[0..117]` are `UNSPEC`; `PBUF[118..127]` keep their values. -/
def Obligations.DecodeRejectsWrongChecksum : Prop :=
  ∀ (s : State) (device address command item c : Byte) (body : List Byte) (more : List RxEvent) (rest : List Event),
    s.phase = .idle → body.length ≠ 1 → body.length ≤ Config.maxPayload →
    c ≠ ck8 (covered device address command item body) →
    s.rx = delivered (covered device address command item body ++ [c]) ++ more →
    s.agenda = .host (encode .dec) :: (List.replicate (6 + body.length + 1) .rxOffer ++ rest) → ∃ t : State,
      Host.Core.run Sys2Proof.core (1 + (6 + body.length + 1)) s = .next t ∧ t.statusByte = 0x54 ∧
      (∀ k, t.pbuf.read k = if k < 118 then .unspec else s.pbuf.read k) ∧
      t = { s with
        phase := .idle, idx := 0, ok := false, fail := true, err := 5,
        hdr := { start := .unspec, device := .unspec, address := .unspec, command := .unspec, item := .unspec,
                 length := .unspec },
        ofsLo := .unspec, ofsHi := .unspec, acc := .unspec, rxck := .unspec,
        pbuf := t.pbuf, rx := more, agenda := rest, tick := s.tick + (1 + (6 + body.length + 1)) }

/-- Frames with `length = 1` (R152): no body byte is read, the byte after the header is taken as the checksum, seven bytes
are consumed, and the decode succeeds exactly when that byte is the header's checksum, in which case the sender's checksum over
header and body byte is 0x00. -/
def Obligations.DecodeLengthOne : Prop :=
  ∀ (s : State) (device address command item p : Byte) (more : List RxEvent) (rest : List Event),
    s.phase = .idle →
    s.rx = delivered [Config.startMarker, device, address, command, item, 1, p] ++ more →
    s.agenda = .host (encode .dec) :: (List.replicate 7 .rxOffer ++ rest) → ∃ t : State,
      Host.Core.run Sys2Proof.core 8 s = .next t ∧ t.rx = more ∧ t.phase = .idle ∧
      t.statusByte = (if p = ck8 [Config.startMarker, device, address, command, item, 1] then 0x02 else 0x54) ∧
      (p = ck8 [Config.startMarker, device, address, command, item, 1] →
        ck8 [Config.startMarker, device, address, command, item, 1, p] = 0x00 ∧ t.ofsLo = .unspec ∧ t.ofsHi = .unspec ∧ t.pbuf = s.pbuf ∧ t.rxck = .val p ∧ t.acc = .val p)

/-- A bad header ends the decode after exactly six bytes: `MARKER` if the marker is wrong, whatever the length, else
`LENGTH` if it is above 120; what follows stays in the stream (R142, R148, R204). -/
def Obligations.BadHeaderConsumesSix : Prop :=
  ∀ (s : State) (start device address command item len : Byte) (more : List RxEvent) (rest : List Event),
    s.phase = .idle → start ≠ Config.startMarker ∨ Config.maxPayload < len.toNat →
    s.rx = delivered [start, device, address, command, item, len] ++ more →
    s.agenda = .host (encode .dec) :: (List.replicate 6 .rxOffer ++ rest) →
    (∀ k < 6, ∃ t : State, Host.Core.run Sys2Proof.core (1 + k) s = .next t ∧ t.statusByte = 0x01) ∧
    (∃ t : State, Host.Core.run Sys2Proof.core 7 s = .next t ∧ t.rx = more ∧ t.phase = .idle ∧
      t.statusByte = (if start ≠ Config.startMarker then 0x44 else 0x14))

/-- Whenever a receive event makes a running decode fail, the outputs become `UNSPEC` and `PBUF[118..127]` keep their
values (R150). -/
def Obligations.FailedDecodeForgetsOutputs : Prop :=
  ∀ (s t : State) (rest : List Event), s.agenda = .rxOffer :: rest → s.rxReady = true → s.fail = false →
    step s = .next t → t.fail = true →
    t.phase = .idle ∧ t.idx = 0 ∧ t.ok = false ∧ t.acc = .unspec ∧ t.ofsLo = .unspec ∧ t.ofsHi = .unspec ∧
    t.rxck = .unspec ∧ (∀ f, t.hdr.get f = .unspec) ∧ (∀ k < 118, t.pbuf.read k = .unspec) ∧
    (∀ k, 118 ≤ k → t.pbuf.read k = s.pbuf.read k) ∧ (t.err = 1 ∨ t.err = 3 ∨ t.err = 4 ∨ t.err = 5)

/-- ROUND TRIP (R151): the frame one machine sends, given to an idle machine, is accepted for `L = 0` and `2 ≤ L ≤ 120`;
the header is the sender's, and for `L ≥ 2` the offset is the first two payload bytes, little-endian, and the others land
two places lower. -/
def Obligations.EncodeDecodeRoundTrip : Prop :=
  ∀ (s : State) (device address command item : Byte) (body : List Byte) (w : HostWord) (rest : List Event),
    Loaded s device address command item body → StartsEncode w body → body.length ≠ 1 →
    s.agenda = .host w :: (List.replicate (6 + body.length + 1) .txAccept ++ rest) →
    ∃ (t : State) (sent : List Byte), Host.Core.run Sys2Proof.core (1 + (6 + body.length + 1)) s = .next t ∧ t.tx = s.tx ++ sent ∧
      ∀ (r : State) (more : List RxEvent) (later : List Event), r.phase = .idle → r.rx = delivered sent ++ more →
        r.agenda = .host (encode .dec) :: (List.replicate sent.length .rxOffer ++ later) →
        ∃ u : State, Host.Core.run Sys2Proof.core (1 + sent.length) r = .next u ∧ u.statusByte = 0x02 ∧ u.rx = more ∧
          u.hdr = t.hdr ∧
          (∀ h : 2 ≤ body.length, u.ofsWord = some (body[1] ++ body[0]) ∧
            ∀ k (hk : k + 2 < body.length), u.pbuf.read k = .val body[k + 2])

/-! ## Host reads (spec/43_register_access.md) -/

/-- Every read changes no state of the block and none of the streams: it only returns one byte to the host (R55, R170). -/
def Obligations.ReadsChangeNoState : Prop :=
  ∀ (i : Instr) (s : State), wordIsWrite (encode i) = false →
    ∃ b, exec i s = .next { s with reads := s.reads ++ [b] }

/-- While idle, a read of a register that holds a byte returns it: `RD ACC`, `RD RXCK`, `RD OFS_LO`, `RD OFS_HI`, the six
`RD HDR_*` and `RD PBUF+i` (R172 to R176). -/
def Obligations.ReadsReturnRegisters : Prop :=
  ∀ (s : State) (b : Byte), s.phase = .idle →
    let returned := { s with reads := s.reads ++ [b] }
    (s.acc = .val b → exec .rdAcc s = .next returned) ∧
    (s.rxck = .val b → exec .rdRxck s = .next returned) ∧
    (s.ofsLo = .val b → exec .rdOfsLo s = .next returned) ∧
    (s.ofsHi = .val b → exec .rdOfsHi s = .next returned) ∧
    (s.hdr.start = .val b → exec .rdHdrStart s = .next returned) ∧
    (s.hdr.device = .val b → exec .rdHdrDevice s = .next returned) ∧
    (s.hdr.address = .val b → exec .rdHdrAddress s = .next returned) ∧
    (s.hdr.command = .val b → exec .rdHdrCommand s = .next returned) ∧
    (s.hdr.item = .val b → exec .rdHdrItem s = .next returned) ∧
    (s.hdr.length = .val b → exec .rdHdrLength s = .next returned) ∧
    (∀ i : BitVec 7, s.pbuf.read i.toNat = .val b → exec (.rdPbuf i) s = .next returned)

/-- `RD CTRL`, `RD CKDATA` and `RD RSVD`, the reads of 0x00, 0x03, 0x05 and 0x0E..0x7F, return 0x00, busy or not (R177). -/
def Obligations.ConstantReadsReturnZero : Prop :=
  ∀ (s : State) (a : Byte),
    exec .rdCtrl s = .next { s with reads := s.reads ++ [0x00] } ∧
    exec .rdCkdata s = .next { s with reads := s.reads ++ [0x00] } ∧
    exec (.rdRsvd a) s = .next { s with reads := s.reads ++ [0x00] } ∧
    (∀ d, a = 0x00 ∨ a = 0x03 ∨ a = 0x05 ∨ (0x0E ≤ a.toNat ∧ a.toNat ≤ 0x7F) →
      exec (decode (hostWord false a d)) s = .next { s with reads := s.reads ++ [0x00] })

/-- `RD STATUS` returns `{0, ERR[2:0], 0, FAIL, OK, BUSY}` at every step, with `BUSY = (PHASE ≠ IDLE)` (R29, R171). -/
def Obligations.StatusReadReturnsFlags : Prop :=
  ∀ s : State, ∃ b : Byte, exec .rdStatus s = .next { s with reads := s.reads ++ [b] } ∧
    (b.getLsbD 0 = true ↔ s.phase ≠ .idle) ∧ b.getLsbD 1 = s.ok ∧ b.getLsbD 2 = s.fail ∧ b.getLsbD 3 = false ∧
    b.extractLsb' 4 3 = s.err ∧ b.getLsbD 7 = false

/-- In the invariant's states `STATUS` has only the legal values 0x00, 0x01, 0x02 and `0x04 | (e << 4)` for e in 1..6
(R171). -/
def Obligations.StatusValuesAreLegal : Prop :=
  ∀ s : State, inv s = true →
    s.statusByte = 0x00 ∨ s.statusByte = 0x01 ∨ s.statusByte = 0x02 ∨
    ∃ e : Nat, 1 ≤ e ∧ e ≤ 6 ∧ s.statusByte = 0x04 ||| (BitVec.ofNat 8 e <<< 4)

/-- A step that D36 does not call a program fault and reads a register returns the byte the register holds. -/
def Obligations.CleanReadReturnsRegister : Prop :=
  ∀ (s : State) (w : HostWord) (rest : List Event) (r : Reg), s.agenda = .host w :: rest →
    programFault s = false → readRegister (decode w) s = some r →
    ∃ b, r = .val b ∧ step s = .next { s with reads := s.reads ++ [b], agenda := rest, tick := s.tick + 1 }

/-! ## Host writes (spec/43_register_access.md) -/

/-- While idle, each `WR HDR_x, d` stores `d` in its own header register and changes nothing else (R178). -/
def Obligations.HeaderWritesStore : Prop :=
  ∀ (s : State) (d : Byte), s.phase = .idle →
    exec (.wrHdrStart d) s = .next { s with hdr := { s.hdr with start := .val d } } ∧
    exec (.wrHdrDevice d) s = .next { s with hdr := { s.hdr with device := .val d } } ∧
    exec (.wrHdrAddress d) s = .next { s with hdr := { s.hdr with address := .val d } } ∧
    exec (.wrHdrCommand d) s = .next { s with hdr := { s.hdr with command := .val d } } ∧
    exec (.wrHdrItem d) s = .next { s with hdr := { s.hdr with item := .val d } } ∧
    exec (.wrHdrLength d) s = .next { s with hdr := { s.hdr with length := .val d } }

/-- While idle, `WR PBUF+i, d` stores `d` at index `i`; every other byte of the buffer and everything else stays (R179). -/
def Obligations.PayloadWriteStores : Prop :=
  ∀ (s : State) (i : BitVec 7) (d : Byte), s.phase = .idle → ∃ t,
    exec (.wrPbuf i d) s = .next t ∧ t = { s with pbuf := t.pbuf } ∧
    ∀ k, t.pbuf.read k = if k = i.toNat then .val d else s.pbuf.read k

/-- The writes to the read-only and reserved locations, 0x01, 0x02, 0x04 to 0x07 and 0x0E..0x7F, have no effect, busy or
not (R180). -/
def Obligations.IgnoredWritesDoNothing : Prop :=
  ∀ (s : State) (a d : Byte),
    exec (.wrStatus d) s = .next s ∧ exec (.wrAcc d) s = .next s ∧ exec (.wrRxck d) s = .next s ∧
    exec (.wrOfsLo d) s = .next s ∧ exec (.wrOfsHi d) s = .next s ∧ exec (.wrRsvd a d) s = .next s ∧
    (a = 0x01 ∨ a = 0x02 ∨ (0x04 ≤ a.toNat ∧ a.toNat ≤ 0x07) ∨ (0x0E ≤ a.toNat ∧ a.toNat ≤ 0x7F) →
      exec (decode (hostWord true a d)) s = .next s)

/-- A write to `CTRL` of a reserved command byte, any but 0x01, 0x02, 0x12 and 0x03, while idle completes with `BADCMD`, `STATUS` 0x64, and changes no other register
(R183, R205): `IDX`, which is 0 in every idle state of the invariant, is 0. -/
def Obligations.ReservedCommandFails : Prop :=
  ∀ d : Byte,
    (d ≠ 0x01 ∧ d ≠ 0x02 ∧ d ≠ 0x12 ∧ d ≠ 0x03 → decode (hostWord true 0x00 d) = .ctrlRsvd d) ∧
    (∀ s : State, s.phase = .idle → ∃ t, exec (.ctrlRsvd d) s = .next t ∧ t.statusByte = 0x64 ∧
      t = { s with idx := 0, ok := false, fail := true, err := 6 })

/-- While a command runs, a write to `CTRL`, `CKDATA`, `HDR` or `PBUF` leaves `ACC`, `HDR`, `OFS`, `RXCK` and every byte of
`PBUF` `UNSPEC` (R234). That `PHASE`, `IDX`, `STATUS` and the streams stay is THE MODEL'S reading (log 5). -/
def Obligations.BusyWriteLeavesUnspec : Prop :=
  ∀ (s : State) (i : Instr), s.phase ≠ .idle → isGuardedWrite i = true → ∃ t, exec i s = .next t ∧
    t.acc = .unspec ∧ (∀ f, t.hdr.get f = .unspec) ∧ t.ofsLo = .unspec ∧ t.ofsHi = .unspec ∧ t.rxck = .unspec ∧
    (∀ k, t.pbuf.read k = .unspec) ∧
    t = { s with acc := t.acc, hdr := t.hdr, ofsLo := t.ofsLo, ofsHi := t.ofsHi, rxck := t.rxck, pbuf := t.pbuf }

/-- Of the host accesses only the `CTRL` writes change `OK`, `FAIL`, `ERR`, `PHASE` and `IDX`; and of all events only
those writes, the acceptance of a presented byte, a receive event that a running decode takes, and `Reset` (R28, R33).
That a busy write to `CKDATA`, `HDR` or `PBUF` leaves `PHASE` and `IDX` is THE MODEL'S reading (log 5). -/
def Obligations.OnlyCommandsStreamStepsAndResetChangeStatus : Prop :=
  (∀ (i : Instr) (s t : State), wordAddress (encode i) ≠ 0x00 ∨ wordIsWrite (encode i) = false →
    exec i s = .next t → t.statusByte = s.statusByte ∧ t.phase = s.phase ∧ t.idx = s.idx) ∧
  (∀ s t : State, step s = .next t →
    (t.statusByte = s.statusByte ∧ t.phase = s.phase ∧ t.idx = s.idx) ∨
    ∃ rest, (∃ w, s.agenda = .host w :: rest ∧ wordIsWrite w = true ∧ wordAddress w = 0x00) ∨
      (s.agenda = .txAccept :: rest ∧ s.txReg ≠ none) ∨
      (s.agenda = .rxOffer :: rest ∧ s.rxReady = true ∧ s.rx ≠ []) ∨
      s.agenda = .reset :: rest)

/-- A `CTRL` write accepted while idle leaves exactly one of busy, `OK` and `FAIL`, and `ERR` 0 unless `FAIL` (R207). -/
def Obligations.CommandEndsInOneOutcome : Prop :=
  ∀ (i : Instr) (s t : State), i = .ckclr ∨ i = .enc ∨ i = .encP ∨ i = .dec ∨ (∃ d, i = .ctrlRsvd d) →
    s.phase = .idle → exec i s = .next t →
    (t.busy, t.ok, t.fail) ∈ [(true, false, false), (false, true, false), (false, false, true)] ∧
    (t.fail = false → t.err = 0)

/-- No host access reaches the streams: the bytes sent, the bytes waiting and the environment's plan stay (R50). -/
def Obligations.HostAccessTouchesNoStream : Prop :=
  ∀ (i : Instr) (s t : State), exec i s = .next t →
    t.tx = s.tx ∧ t.rx = s.rx ∧ t.agenda = s.agenda ∧ t.tick = s.tick

/-! ## Reset and hangs (spec/70_reset_and_hazards.md) -/

/-- The state after reset (R232). -/
def Obligations.ResetStateValues : Prop :=
  State.reset.phase = .idle ∧ State.reset.idx = 0 ∧ State.reset.acc = .val 0x00 ∧ State.reset.statusByte = 0x00 ∧
  (∀ f, State.reset.hdr.get f = .unspec) ∧ State.reset.ofsLo = .unspec ∧ State.reset.ofsHi = .unspec ∧
  State.reset.rxck = .unspec ∧ (∀ k, State.reset.pbuf.read k = .unspec)

/-- `Reset` at any step, in any phase, sets every register to its reset value and undoes no stream event (R230, R231). -/
def Obligations.ResetEventRestores : Prop :=
  ∀ (s : State) (rest : List Event), s.agenda = .reset :: rest →
    step s = .next { State.reset with
      agenda := rest, rx := s.rx, tx := s.tx, reads := s.reads, tick := s.tick + 1 }

/-- A starved command hangs (R238): with no `Reset` to come, an encode stays in its phase as long as no byte is accepted,
and a decode as long as the producer has nothing to offer; neither the block nor a host access ends it. That a write to
`CTRL`, `CKDATA`, `HDR` or `PBUF` among those accesses leaves `PHASE` and `IDX` is THE MODEL'S reading of R234 (log 5). -/
def Obligations.StarvedCommandHangs : Prop :=
  ∀ (k : Nat) (s t : State), .reset ∉ s.agenda → Host.Core.run Sys2Proof.core k s = .next t →
    (s.txReg ≠ none → .txAccept ∉ s.agenda → t.phase = s.phase ∧ t.idx = s.idx ∧ t.tx = s.tx) ∧
    (s.rxReady = true → s.rx = [] → t.phase = s.phase ∧ t.idx = s.idx ∧ t.rx = [])

/-! ## Free values (spec/10_state.md R30, spec/92_eei_decisions.md D36) -/

/-- No run without a program fault makes a running command's sequencing rest on `UNSPEC`. -/
def Obligations.CleanRunStaysDefined : Prop :=
  ∀ (k : Nat) (s t : State), definedRunning s = true → cleanRun k s = true →
    Host.Core.run Sys2Proof.core k s = .next t → definedRunning t = true

/-- THE MODEL'S FREE VALUES (logs 2, 6, 7) matter to no step that is not a program fault, but for `HDR[0]` after an `ENC`
or `ENC.P` that fails in that step (R121): with the free values of any other event the step leaves the same state but for
the event count. -/
def Obligations.CleanStepIgnoresFreeValues : Prop :=
  ∀ (s t t' : State) (n : Nat), definedRunning s = true → programFault s = false →
    step s = .next t → step { s with tick := n } = .next t' →
    t' = { t with tick := t'.tick, hdr := { t.hdr with start := t'.hdr.start } } ∧
    (t'.hdr.start = t.hdr.start ∨
      (t.fail = true ∧ s.phase = .idle ∧
        ∃ w rest, s.agenda = .host w :: rest ∧ (decode w = .enc ∨ decode w = .encP)))

/-! ## The invariant (spec/10_state.md R22, R27, R28) -/

/-- Every step keeps the invariant: the payload buffer's canonical form, the legal status, the bounds on `IDX` and on the
length of a running command, and the marker of a running encode. -/
def Obligations.StepKeepsInvariant : Prop :=
  ∀ s t : State, inv s = true → step s = .next t → inv t = true

/-- The state after reset has the invariant. -/
def Obligations.ResetHasInvariant : Prop :=
  inv State.reset = true
end

