-- ==== Sys2Proof/Laws/Memory.lean ====
section
/-! SUPPORT. The payload buffer's laws: read after write, the frame of every operation, and the canonical form. -/

namespace Sys2Proof.Machine

@[simp] theorem Memory.read_nil (k : Nat) : Memory.read [] k = .unspec := rfl

/-- Read after write: the written index reads the written byte, every other index reads as before. -/
theorem Memory.read_write (m : Memory) (k j : Nat) (d : Byte) :
    Memory.read (Memory.write m k d) j = if j = k then .val d else Memory.read m j := by
  induction m with
  | nil => simp [Memory.write, Memory.read, eq_comm]
  | cons c rest ih =>
    obtain ⟨a, b⟩ := c
    simp only [Memory.write]
    split
    · simp [Memory.read, eq_comm]
    · split
      · subst_vars
        simp only [Memory.read]
        split <;> simp_all [eq_comm]
      · simp only [Memory.read, ih]
        split <;> split <;> simp_all

@[simp] theorem Memory.read_write_same (m : Memory) (k : Nat) (d : Byte) :
    Memory.read (Memory.write m k d) k = .val d := by
  simp [Memory.read_write]

@[simp] theorem Memory.read_write_other (m : Memory) (k j : Nat) (d : Byte) (h : j ≠ k) :
    Memory.read (Memory.write m k d) j = Memory.read m j := by
  simp [Memory.read_write, h]

/-- Forgetting the indices below `n` leaves them `UNSPEC` and the others as before. -/
theorem Memory.read_forgetBelow (m : Memory) (n j : Nat) :
    Memory.read (Memory.forgetBelow m n) j = if j < n then .unspec else Memory.read m j := by
  induction m with
  | nil => simp [Memory.forgetBelow, Memory.read]
  | cons c rest ih =>
    obtain ⟨a, b⟩ := c
    simp only [Memory.forgetBelow, List.filter_cons, decide_eq_true_eq] at ih ⊢
    split
    · by_cases ha : a = j <;> simp only [Memory.read, ih, ha, if_true, if_false]
      rw [if_neg (by omega)]
    · by_cases ha : a = j <;> simp only [Memory.read, ih, ha, if_true, if_false]
      simp [show j < n by omega]

theorem Memory.risesFrom_mono (m : Memory) (i j : Nat) (h : i ≤ j) (hm : Memory.risesFrom j m = true) :
    Memory.risesFrom i m = true := by
  cases m with
  | nil => rfl
  | cons c rest =>
    simp only [Memory.risesFrom, Bool.and_eq_true, decide_eq_true_eq] at hm ⊢
    exact ⟨by omega, hm.2⟩

theorem Memory.risesFrom_write (m : Memory) (i k : Nat) (d : Byte) (hk : i ≤ k)
    (hm : Memory.risesFrom i m = true) : Memory.risesFrom i (Memory.write m k d) = true := by
  induction m generalizing i with
  | nil => simp [Memory.write, Memory.risesFrom, hk]
  | cons c rest ih =>
    obtain ⟨a, b⟩ := c
    simp only [Memory.risesFrom, Bool.and_eq_true, decide_eq_true_eq] at hm
    simp only [Memory.write]
    split
    · simp only [Memory.risesFrom, Bool.and_eq_true, decide_eq_true_eq]
      exact ⟨hk, by omega, hm.2⟩
    · split
      · subst_vars
        simp only [Memory.risesFrom, Bool.and_eq_true, decide_eq_true_eq]
        exact ⟨hk, hm.2⟩
      · simp only [Memory.risesFrom, Bool.and_eq_true, decide_eq_true_eq]
        exact ⟨hm.1, ih (a + 1) (by omega) hm.2⟩

theorem Memory.mem_write (m : Memory) (k : Nat) (d : Byte) (c : Host.Cell) (h : c ∈ Memory.write m k d) :
    c = (k, d) ∨ c ∈ m := by
  induction m with
  | nil => simpa [Memory.write] using h
  | cons x rest ih =>
    obtain ⟨a, b⟩ := x
    simp only [Memory.write] at h
    split at h
    · simpa using h
    · split at h
      · rcases List.mem_cons.1 h with h | h
        · exact .inl h
        · exact .inr (List.mem_cons_of_mem _ h)
      · rcases List.mem_cons.1 h with h | h
        · exact .inr (h ▸ List.mem_cons_self)
        · exact (ih h).imp id (List.mem_cons_of_mem _)

theorem Memory.wf_nil : Memory.wf [] = true := rfl

/-- A write inside the buffer keeps the canonical form. -/
theorem Memory.wf_write (m : Memory) (k : Nat) (d : Byte) (hk : k < Config.pbufSize) (hm : m.wf = true) :
    (Memory.write m k d).wf = true := by
  simp only [Memory.wf, Bool.and_eq_true, List.all_eq_true, decide_eq_true_eq] at hm ⊢
  refine ⟨Memory.risesFrom_write m 0 k d (Nat.zero_le k) hm.1, fun c hc => ?_⟩
  rcases Memory.mem_write m k d c hc with rfl | hc
  · exact hk
  · exact hm.2 c hc

theorem Memory.risesFrom_forgetBelow (m : Memory) (i n : Nat) (hm : Memory.risesFrom i m = true) :
    Memory.risesFrom i (Memory.forgetBelow m n) = true := by
  induction m generalizing i with
  | nil => rfl
  | cons c rest ih =>
    obtain ⟨a, b⟩ := c
    simp only [Memory.risesFrom, Bool.and_eq_true, decide_eq_true_eq] at hm
    simp only [Memory.forgetBelow, List.filter_cons, decide_eq_true_eq] at ih ⊢
    split
    · simp only [Memory.risesFrom, Bool.and_eq_true, decide_eq_true_eq]
      exact ⟨hm.1, ih (a + 1) hm.2⟩
    · exact Memory.risesFrom_mono _ i (a + 1) (by omega) (ih (a + 1) hm.2)

/-- Forgetting keeps the canonical form. -/
theorem Memory.wf_forgetBelow (m : Memory) (n : Nat) (hm : m.wf = true) : (Memory.forgetBelow m n).wf = true := by
  simp only [Memory.wf, Bool.and_eq_true, List.all_eq_true, decide_eq_true_eq] at hm ⊢
  exact ⟨Memory.risesFrom_forgetBelow m 0 n hm.1, fun c hc => hm.2 c (List.mem_of_mem_filter hc)⟩

end Sys2Proof.Machine
end

