-- ==== Sys2Proof/Laws/State.lean ====
section
/-! SUPPORT. One lemma per field and update of State, true by rfl, so that no later proof unfolds a record update. -/

namespace Sys2Proof.Machine

@[simp] theorem State.acceptCommand_phase (s : State) : (s.acceptCommand).phase = s.phase := rfl
@[simp] theorem State.acceptCommand_idx (s : State) : (s.acceptCommand).idx = s.idx := rfl
@[simp] theorem State.acceptCommand_acc (s : State) : (s.acceptCommand).acc = s.acc := rfl
@[simp] theorem State.acceptCommand_hdr (s : State) : (s.acceptCommand).hdr = s.hdr := rfl
@[simp] theorem State.acceptCommand_ofsLo (s : State) : (s.acceptCommand).ofsLo = s.ofsLo := rfl
@[simp] theorem State.acceptCommand_ofsHi (s : State) : (s.acceptCommand).ofsHi = s.ofsHi := rfl
@[simp] theorem State.acceptCommand_rxck (s : State) : (s.acceptCommand).rxck = s.rxck := rfl
@[simp] theorem State.acceptCommand_pbuf (s : State) : (s.acceptCommand).pbuf = s.pbuf := rfl
@[simp] theorem State.acceptCommand_ok (s : State) : (s.acceptCommand).ok = false := rfl
@[simp] theorem State.acceptCommand_fail (s : State) : (s.acceptCommand).fail = false := rfl
@[simp] theorem State.acceptCommand_err (s : State) : (s.acceptCommand).err = 0 := rfl
@[simp] theorem State.acceptCommand_agenda (s : State) : (s.acceptCommand).agenda = s.agenda := rfl
@[simp] theorem State.acceptCommand_rx (s : State) : (s.acceptCommand).rx = s.rx := rfl
@[simp] theorem State.acceptCommand_tx (s : State) : (s.acceptCommand).tx = s.tx := rfl
@[simp] theorem State.acceptCommand_reads (s : State) : (s.acceptCommand).reads = s.reads := rfl
@[simp] theorem State.acceptCommand_tick (s : State) : (s.acceptCommand).tick = s.tick := rfl

@[simp] theorem State.completeOk_phase (s : State) : (s.completeOk).phase = .idle := rfl
@[simp] theorem State.completeOk_idx (s : State) : (s.completeOk).idx = 0 := rfl
@[simp] theorem State.completeOk_acc (s : State) : (s.completeOk).acc = s.acc := rfl
@[simp] theorem State.completeOk_hdr (s : State) : (s.completeOk).hdr = s.hdr := rfl
@[simp] theorem State.completeOk_ofsLo (s : State) : (s.completeOk).ofsLo = s.ofsLo := rfl
@[simp] theorem State.completeOk_ofsHi (s : State) : (s.completeOk).ofsHi = s.ofsHi := rfl
@[simp] theorem State.completeOk_rxck (s : State) : (s.completeOk).rxck = s.rxck := rfl
@[simp] theorem State.completeOk_pbuf (s : State) : (s.completeOk).pbuf = s.pbuf := rfl
@[simp] theorem State.completeOk_ok (s : State) : (s.completeOk).ok = true := rfl
@[simp] theorem State.completeOk_fail (s : State) : (s.completeOk).fail = false := rfl
@[simp] theorem State.completeOk_err (s : State) : (s.completeOk).err = 0 := rfl
@[simp] theorem State.completeOk_agenda (s : State) : (s.completeOk).agenda = s.agenda := rfl
@[simp] theorem State.completeOk_rx (s : State) : (s.completeOk).rx = s.rx := rfl
@[simp] theorem State.completeOk_tx (s : State) : (s.completeOk).tx = s.tx := rfl
@[simp] theorem State.completeOk_reads (s : State) : (s.completeOk).reads = s.reads := rfl
@[simp] theorem State.completeOk_tick (s : State) : (s.completeOk).tick = s.tick := rfl

@[simp] theorem State.completeFail_phase (c : Cause) (s : State) : (s.completeFail c).phase = .idle := rfl
@[simp] theorem State.completeFail_idx (c : Cause) (s : State) : (s.completeFail c).idx = 0 := rfl
@[simp] theorem State.completeFail_acc (c : Cause) (s : State) : (s.completeFail c).acc = s.acc := rfl
@[simp] theorem State.completeFail_hdr (c : Cause) (s : State) : (s.completeFail c).hdr = s.hdr := rfl
@[simp] theorem State.completeFail_ofsLo (c : Cause) (s : State) : (s.completeFail c).ofsLo = s.ofsLo := rfl
@[simp] theorem State.completeFail_ofsHi (c : Cause) (s : State) : (s.completeFail c).ofsHi = s.ofsHi := rfl
@[simp] theorem State.completeFail_rxck (c : Cause) (s : State) : (s.completeFail c).rxck = s.rxck := rfl
@[simp] theorem State.completeFail_pbuf (c : Cause) (s : State) : (s.completeFail c).pbuf = s.pbuf := rfl
@[simp] theorem State.completeFail_ok (c : Cause) (s : State) : (s.completeFail c).ok = false := rfl
@[simp] theorem State.completeFail_fail (c : Cause) (s : State) : (s.completeFail c).fail = true := rfl
@[simp] theorem State.completeFail_err (c : Cause) (s : State) : (s.completeFail c).err = c.code := rfl
@[simp] theorem State.completeFail_agenda (c : Cause) (s : State) : (s.completeFail c).agenda = s.agenda := rfl
@[simp] theorem State.completeFail_rx (c : Cause) (s : State) : (s.completeFail c).rx = s.rx := rfl
@[simp] theorem State.completeFail_tx (c : Cause) (s : State) : (s.completeFail c).tx = s.tx := rfl
@[simp] theorem State.completeFail_reads (c : Cause) (s : State) : (s.completeFail c).reads = s.reads := rfl
@[simp] theorem State.completeFail_tick (c : Cause) (s : State) : (s.completeFail c).tick = s.tick := rfl

@[simp] theorem State.forgetDecodeOutputs_phase (s : State) : (s.forgetDecodeOutputs).phase = s.phase := rfl
@[simp] theorem State.forgetDecodeOutputs_idx (s : State) : (s.forgetDecodeOutputs).idx = s.idx := rfl
@[simp] theorem State.forgetDecodeOutputs_acc (s : State) : (s.forgetDecodeOutputs).acc = .unspec := rfl
@[simp] theorem State.forgetDecodeOutputs_hdr (s : State) : (s.forgetDecodeOutputs).hdr = Header.unspec := rfl
@[simp] theorem State.forgetDecodeOutputs_ofsLo (s : State) : (s.forgetDecodeOutputs).ofsLo = .unspec := rfl
@[simp] theorem State.forgetDecodeOutputs_ofsHi (s : State) : (s.forgetDecodeOutputs).ofsHi = .unspec := rfl
@[simp] theorem State.forgetDecodeOutputs_rxck (s : State) : (s.forgetDecodeOutputs).rxck = .unspec := rfl
@[simp] theorem State.forgetDecodeOutputs_pbuf (s : State) : (s.forgetDecodeOutputs).pbuf = s.pbuf.forgetBelow Config.decodeReach := rfl
@[simp] theorem State.forgetDecodeOutputs_ok (s : State) : (s.forgetDecodeOutputs).ok = s.ok := rfl
@[simp] theorem State.forgetDecodeOutputs_fail (s : State) : (s.forgetDecodeOutputs).fail = s.fail := rfl
@[simp] theorem State.forgetDecodeOutputs_err (s : State) : (s.forgetDecodeOutputs).err = s.err := rfl
@[simp] theorem State.forgetDecodeOutputs_agenda (s : State) : (s.forgetDecodeOutputs).agenda = s.agenda := rfl
@[simp] theorem State.forgetDecodeOutputs_rx (s : State) : (s.forgetDecodeOutputs).rx = s.rx := rfl
@[simp] theorem State.forgetDecodeOutputs_tx (s : State) : (s.forgetDecodeOutputs).tx = s.tx := rfl
@[simp] theorem State.forgetDecodeOutputs_reads (s : State) : (s.forgetDecodeOutputs).reads = s.reads := rfl
@[simp] theorem State.forgetDecodeOutputs_tick (s : State) : (s.forgetDecodeOutputs).tick = s.tick := rfl

@[simp] theorem State.decodeFail_phase (c : Cause) (s : State) : (s.decodeFail c).phase = .idle := rfl
@[simp] theorem State.decodeFail_idx (c : Cause) (s : State) : (s.decodeFail c).idx = 0 := rfl
@[simp] theorem State.decodeFail_acc (c : Cause) (s : State) : (s.decodeFail c).acc = .unspec := rfl
@[simp] theorem State.decodeFail_hdr (c : Cause) (s : State) : (s.decodeFail c).hdr = Header.unspec := rfl
@[simp] theorem State.decodeFail_ofsLo (c : Cause) (s : State) : (s.decodeFail c).ofsLo = .unspec := rfl
@[simp] theorem State.decodeFail_ofsHi (c : Cause) (s : State) : (s.decodeFail c).ofsHi = .unspec := rfl
@[simp] theorem State.decodeFail_rxck (c : Cause) (s : State) : (s.decodeFail c).rxck = .unspec := rfl
@[simp] theorem State.decodeFail_pbuf (c : Cause) (s : State) : (s.decodeFail c).pbuf = s.pbuf.forgetBelow Config.decodeReach := rfl
@[simp] theorem State.decodeFail_ok (c : Cause) (s : State) : (s.decodeFail c).ok = false := rfl
@[simp] theorem State.decodeFail_fail (c : Cause) (s : State) : (s.decodeFail c).fail = true := rfl
@[simp] theorem State.decodeFail_err (c : Cause) (s : State) : (s.decodeFail c).err = c.code := rfl
@[simp] theorem State.decodeFail_agenda (c : Cause) (s : State) : (s.decodeFail c).agenda = s.agenda := rfl
@[simp] theorem State.decodeFail_rx (c : Cause) (s : State) : (s.decodeFail c).rx = s.rx := rfl
@[simp] theorem State.decodeFail_tx (c : Cause) (s : State) : (s.decodeFail c).tx = s.tx := rfl
@[simp] theorem State.decodeFail_reads (c : Cause) (s : State) : (s.decodeFail c).reads = s.reads := rfl
@[simp] theorem State.decodeFail_tick (c : Cause) (s : State) : (s.decodeFail c).tick = s.tick := rfl

@[simp] theorem State.encodeFail_phase (c : Cause) (s : State) : (s.encodeFail c).phase = .idle := rfl
@[simp] theorem State.encodeFail_idx (c : Cause) (s : State) : (s.encodeFail c).idx = 0 := rfl
@[simp] theorem State.encodeFail_acc (c : Cause) (s : State) : (s.encodeFail c).acc = s.acc := rfl
@[simp] theorem State.encodeFail_hdr (c : Cause) (s : State) : (s.encodeFail c).hdr = s.hdr.set .start (if Config.drawChoice s.tick then .val Config.startMarker else s.hdr.start) := rfl
@[simp] theorem State.encodeFail_ofsLo (c : Cause) (s : State) : (s.encodeFail c).ofsLo = s.ofsLo := rfl
@[simp] theorem State.encodeFail_ofsHi (c : Cause) (s : State) : (s.encodeFail c).ofsHi = s.ofsHi := rfl
@[simp] theorem State.encodeFail_rxck (c : Cause) (s : State) : (s.encodeFail c).rxck = s.rxck := rfl
@[simp] theorem State.encodeFail_pbuf (c : Cause) (s : State) : (s.encodeFail c).pbuf = s.pbuf := rfl
@[simp] theorem State.encodeFail_ok (c : Cause) (s : State) : (s.encodeFail c).ok = false := rfl
@[simp] theorem State.encodeFail_fail (c : Cause) (s : State) : (s.encodeFail c).fail = true := rfl
@[simp] theorem State.encodeFail_err (c : Cause) (s : State) : (s.encodeFail c).err = c.code := rfl
@[simp] theorem State.encodeFail_agenda (c : Cause) (s : State) : (s.encodeFail c).agenda = s.agenda := rfl
@[simp] theorem State.encodeFail_rx (c : Cause) (s : State) : (s.encodeFail c).rx = s.rx := rfl
@[simp] theorem State.encodeFail_tx (c : Cause) (s : State) : (s.encodeFail c).tx = s.tx := rfl
@[simp] theorem State.encodeFail_reads (c : Cause) (s : State) : (s.encodeFail c).reads = s.reads := rfl
@[simp] theorem State.encodeFail_tick (c : Cause) (s : State) : (s.encodeFail c).tick = s.tick := rfl

@[simp] theorem State.busyHazard_phase (s : State) : (s.busyHazard).phase = s.phase := rfl
@[simp] theorem State.busyHazard_idx (s : State) : (s.busyHazard).idx = s.idx := rfl
@[simp] theorem State.busyHazard_acc (s : State) : (s.busyHazard).acc = .unspec := rfl
@[simp] theorem State.busyHazard_hdr (s : State) : (s.busyHazard).hdr = Header.unspec := rfl
@[simp] theorem State.busyHazard_ofsLo (s : State) : (s.busyHazard).ofsLo = .unspec := rfl
@[simp] theorem State.busyHazard_ofsHi (s : State) : (s.busyHazard).ofsHi = .unspec := rfl
@[simp] theorem State.busyHazard_rxck (s : State) : (s.busyHazard).rxck = .unspec := rfl
@[simp] theorem State.busyHazard_pbuf (s : State) : (s.busyHazard).pbuf = [] := rfl
@[simp] theorem State.busyHazard_ok (s : State) : (s.busyHazard).ok = s.ok := rfl
@[simp] theorem State.busyHazard_fail (s : State) : (s.busyHazard).fail = s.fail := rfl
@[simp] theorem State.busyHazard_err (s : State) : (s.busyHazard).err = s.err := rfl
@[simp] theorem State.busyHazard_agenda (s : State) : (s.busyHazard).agenda = s.agenda := rfl
@[simp] theorem State.busyHazard_rx (s : State) : (s.busyHazard).rx = s.rx := rfl
@[simp] theorem State.busyHazard_tx (s : State) : (s.busyHazard).tx = s.tx := rfl
@[simp] theorem State.busyHazard_reads (s : State) : (s.busyHazard).reads = s.reads := rfl
@[simp] theorem State.busyHazard_tick (s : State) : (s.busyHazard).tick = s.tick := rfl

@[simp] theorem State.subtract_phase (r : Reg) (s : State) : (s.subtract r).phase = s.phase := rfl
@[simp] theorem State.subtract_idx (r : Reg) (s : State) : (s.subtract r).idx = s.idx := rfl
@[simp] theorem State.subtract_acc (r : Reg) (s : State) : (s.subtract r).acc = s.acc.minus r := rfl
@[simp] theorem State.subtract_hdr (r : Reg) (s : State) : (s.subtract r).hdr = s.hdr := rfl
@[simp] theorem State.subtract_ofsLo (r : Reg) (s : State) : (s.subtract r).ofsLo = s.ofsLo := rfl
@[simp] theorem State.subtract_ofsHi (r : Reg) (s : State) : (s.subtract r).ofsHi = s.ofsHi := rfl
@[simp] theorem State.subtract_rxck (r : Reg) (s : State) : (s.subtract r).rxck = s.rxck := rfl
@[simp] theorem State.subtract_pbuf (r : Reg) (s : State) : (s.subtract r).pbuf = s.pbuf := rfl
@[simp] theorem State.subtract_ok (r : Reg) (s : State) : (s.subtract r).ok = s.ok := rfl
@[simp] theorem State.subtract_fail (r : Reg) (s : State) : (s.subtract r).fail = s.fail := rfl
@[simp] theorem State.subtract_err (r : Reg) (s : State) : (s.subtract r).err = s.err := rfl
@[simp] theorem State.subtract_agenda (r : Reg) (s : State) : (s.subtract r).agenda = s.agenda := rfl
@[simp] theorem State.subtract_rx (r : Reg) (s : State) : (s.subtract r).rx = s.rx := rfl
@[simp] theorem State.subtract_tx (r : Reg) (s : State) : (s.subtract r).tx = s.tx := rfl
@[simp] theorem State.subtract_reads (r : Reg) (s : State) : (s.subtract r).reads = s.reads := rfl
@[simp] theorem State.subtract_tick (r : Reg) (s : State) : (s.subtract r).tick = s.tick := rfl

@[simp] theorem State.startEncode_phase (s : State) : (s.startEncode).phase = .encHdr := rfl
@[simp] theorem State.startEncode_idx (s : State) : (s.startEncode).idx = 0 := rfl
@[simp] theorem State.startEncode_acc (s : State) : (s.startEncode).acc = .val 0x00 := rfl
@[simp] theorem State.startEncode_hdr (s : State) : (s.startEncode).hdr = s.hdr.set .start (.val Config.startMarker) := rfl
@[simp] theorem State.startEncode_ofsLo (s : State) : (s.startEncode).ofsLo = s.ofsLo := rfl
@[simp] theorem State.startEncode_ofsHi (s : State) : (s.startEncode).ofsHi = s.ofsHi := rfl
@[simp] theorem State.startEncode_rxck (s : State) : (s.startEncode).rxck = s.rxck := rfl
@[simp] theorem State.startEncode_pbuf (s : State) : (s.startEncode).pbuf = s.pbuf := rfl
@[simp] theorem State.startEncode_ok (s : State) : (s.startEncode).ok = s.ok := rfl
@[simp] theorem State.startEncode_fail (s : State) : (s.startEncode).fail = s.fail := rfl
@[simp] theorem State.startEncode_err (s : State) : (s.startEncode).err = s.err := rfl
@[simp] theorem State.startEncode_agenda (s : State) : (s.startEncode).agenda = s.agenda := rfl
@[simp] theorem State.startEncode_rx (s : State) : (s.startEncode).rx = s.rx := rfl
@[simp] theorem State.startEncode_tx (s : State) : (s.startEncode).tx = s.tx := rfl
@[simp] theorem State.startEncode_reads (s : State) : (s.startEncode).reads = s.reads := rfl
@[simp] theorem State.startEncode_tick (s : State) : (s.startEncode).tick = s.tick := rfl

@[simp] theorem State.returnByte_phase (b : Byte) (s : State) : (s.returnByte b).phase = s.phase := rfl
@[simp] theorem State.returnByte_idx (b : Byte) (s : State) : (s.returnByte b).idx = s.idx := rfl
@[simp] theorem State.returnByte_acc (b : Byte) (s : State) : (s.returnByte b).acc = s.acc := rfl
@[simp] theorem State.returnByte_hdr (b : Byte) (s : State) : (s.returnByte b).hdr = s.hdr := rfl
@[simp] theorem State.returnByte_ofsLo (b : Byte) (s : State) : (s.returnByte b).ofsLo = s.ofsLo := rfl
@[simp] theorem State.returnByte_ofsHi (b : Byte) (s : State) : (s.returnByte b).ofsHi = s.ofsHi := rfl
@[simp] theorem State.returnByte_rxck (b : Byte) (s : State) : (s.returnByte b).rxck = s.rxck := rfl
@[simp] theorem State.returnByte_pbuf (b : Byte) (s : State) : (s.returnByte b).pbuf = s.pbuf := rfl
@[simp] theorem State.returnByte_ok (b : Byte) (s : State) : (s.returnByte b).ok = s.ok := rfl
@[simp] theorem State.returnByte_fail (b : Byte) (s : State) : (s.returnByte b).fail = s.fail := rfl
@[simp] theorem State.returnByte_err (b : Byte) (s : State) : (s.returnByte b).err = s.err := rfl
@[simp] theorem State.returnByte_agenda (b : Byte) (s : State) : (s.returnByte b).agenda = s.agenda := rfl
@[simp] theorem State.returnByte_rx (b : Byte) (s : State) : (s.returnByte b).rx = s.rx := rfl
@[simp] theorem State.returnByte_tx (b : Byte) (s : State) : (s.returnByte b).tx = s.tx := rfl
@[simp] theorem State.returnByte_reads (b : Byte) (s : State) : (s.returnByte b).reads = s.reads ++ [b] := rfl
@[simp] theorem State.returnByte_tick (b : Byte) (s : State) : (s.returnByte b).tick = s.tick := rfl

@[simp] theorem State.returnReg_phase (r : Reg) (s : State) : (s.returnReg r).phase = s.phase := rfl
@[simp] theorem State.returnReg_idx (r : Reg) (s : State) : (s.returnReg r).idx = s.idx := rfl
@[simp] theorem State.returnReg_acc (r : Reg) (s : State) : (s.returnReg r).acc = s.acc := rfl
@[simp] theorem State.returnReg_hdr (r : Reg) (s : State) : (s.returnReg r).hdr = s.hdr := rfl
@[simp] theorem State.returnReg_ofsLo (r : Reg) (s : State) : (s.returnReg r).ofsLo = s.ofsLo := rfl
@[simp] theorem State.returnReg_ofsHi (r : Reg) (s : State) : (s.returnReg r).ofsHi = s.ofsHi := rfl
@[simp] theorem State.returnReg_rxck (r : Reg) (s : State) : (s.returnReg r).rxck = s.rxck := rfl
@[simp] theorem State.returnReg_pbuf (r : Reg) (s : State) : (s.returnReg r).pbuf = s.pbuf := rfl
@[simp] theorem State.returnReg_ok (r : Reg) (s : State) : (s.returnReg r).ok = s.ok := rfl
@[simp] theorem State.returnReg_fail (r : Reg) (s : State) : (s.returnReg r).fail = s.fail := rfl
@[simp] theorem State.returnReg_err (r : Reg) (s : State) : (s.returnReg r).err = s.err := rfl
@[simp] theorem State.returnReg_agenda (r : Reg) (s : State) : (s.returnReg r).agenda = s.agenda := rfl
@[simp] theorem State.returnReg_rx (r : Reg) (s : State) : (s.returnReg r).rx = s.rx := rfl
@[simp] theorem State.returnReg_tx (r : Reg) (s : State) : (s.returnReg r).tx = s.tx := rfl
@[simp] theorem State.returnReg_reads (r : Reg) (s : State) : (s.returnReg r).reads = s.reads ++ [((if s.busy then Reg.unspec else r).value (Config.drawByte s.tick))] := rfl
@[simp] theorem State.returnReg_tick (r : Reg) (s : State) : (s.returnReg r).tick = s.tick := rfl

@[simp] theorem State.resetBlock_phase (s : State) : (s.resetBlock).phase = .idle := rfl
@[simp] theorem State.resetBlock_idx (s : State) : (s.resetBlock).idx = 0 := rfl
@[simp] theorem State.resetBlock_acc (s : State) : (s.resetBlock).acc = .val 0x00 := rfl
@[simp] theorem State.resetBlock_hdr (s : State) : (s.resetBlock).hdr = Header.unspec := rfl
@[simp] theorem State.resetBlock_ofsLo (s : State) : (s.resetBlock).ofsLo = .unspec := rfl
@[simp] theorem State.resetBlock_ofsHi (s : State) : (s.resetBlock).ofsHi = .unspec := rfl
@[simp] theorem State.resetBlock_rxck (s : State) : (s.resetBlock).rxck = .unspec := rfl
@[simp] theorem State.resetBlock_pbuf (s : State) : (s.resetBlock).pbuf = [] := rfl
@[simp] theorem State.resetBlock_ok (s : State) : (s.resetBlock).ok = false := rfl
@[simp] theorem State.resetBlock_fail (s : State) : (s.resetBlock).fail = false := rfl
@[simp] theorem State.resetBlock_err (s : State) : (s.resetBlock).err = 0 := rfl
@[simp] theorem State.resetBlock_agenda (s : State) : (s.resetBlock).agenda = s.agenda := rfl
@[simp] theorem State.resetBlock_rx (s : State) : (s.resetBlock).rx = s.rx := rfl
@[simp] theorem State.resetBlock_tx (s : State) : (s.resetBlock).tx = s.tx := rfl
@[simp] theorem State.resetBlock_reads (s : State) : (s.resetBlock).reads = s.reads := rfl
@[simp] theorem State.resetBlock_tick (s : State) : (s.resetBlock).tick = s.tick := rfl

@[simp] theorem State.offerWord_phase (w : HostWord) (s : State) : (s.offerWord w).phase = s.phase := rfl
@[simp] theorem State.offerWord_idx (w : HostWord) (s : State) : (s.offerWord w).idx = s.idx := rfl
@[simp] theorem State.offerWord_acc (w : HostWord) (s : State) : (s.offerWord w).acc = s.acc := rfl
@[simp] theorem State.offerWord_hdr (w : HostWord) (s : State) : (s.offerWord w).hdr = s.hdr := rfl
@[simp] theorem State.offerWord_ofsLo (w : HostWord) (s : State) : (s.offerWord w).ofsLo = s.ofsLo := rfl
@[simp] theorem State.offerWord_ofsHi (w : HostWord) (s : State) : (s.offerWord w).ofsHi = s.ofsHi := rfl
@[simp] theorem State.offerWord_rxck (w : HostWord) (s : State) : (s.offerWord w).rxck = s.rxck := rfl
@[simp] theorem State.offerWord_pbuf (w : HostWord) (s : State) : (s.offerWord w).pbuf = s.pbuf := rfl
@[simp] theorem State.offerWord_ok (w : HostWord) (s : State) : (s.offerWord w).ok = s.ok := rfl
@[simp] theorem State.offerWord_fail (w : HostWord) (s : State) : (s.offerWord w).fail = s.fail := rfl
@[simp] theorem State.offerWord_err (w : HostWord) (s : State) : (s.offerWord w).err = s.err := rfl
@[simp] theorem State.offerWord_agenda (w : HostWord) (s : State) : (s.offerWord w).agenda = .host w :: s.agenda := rfl
@[simp] theorem State.offerWord_rx (w : HostWord) (s : State) : (s.offerWord w).rx = s.rx := rfl
@[simp] theorem State.offerWord_tx (w : HostWord) (s : State) : (s.offerWord w).tx = s.tx := rfl
@[simp] theorem State.offerWord_reads (w : HostWord) (s : State) : (s.offerWord w).reads = s.reads := rfl
@[simp] theorem State.offerWord_tick (w : HostWord) (s : State) : (s.offerWord w).tick = s.tick := rfl

@[simp] theorem Header.set_start_start (h : Header) (r : Reg) : (h.set .start r).start = r := rfl
@[simp] theorem Header.set_start_device (h : Header) (r : Reg) : (h.set .start r).device = h.device := rfl
@[simp] theorem Header.set_start_address (h : Header) (r : Reg) : (h.set .start r).address = h.address := rfl
@[simp] theorem Header.set_start_command (h : Header) (r : Reg) : (h.set .start r).command = h.command := rfl
@[simp] theorem Header.set_start_item (h : Header) (r : Reg) : (h.set .start r).item = h.item := rfl
@[simp] theorem Header.set_start_length (h : Header) (r : Reg) : (h.set .start r).length = h.length := rfl
@[simp] theorem Header.set_device_start (h : Header) (r : Reg) : (h.set .device r).start = h.start := rfl
@[simp] theorem Header.set_device_device (h : Header) (r : Reg) : (h.set .device r).device = r := rfl
@[simp] theorem Header.set_device_address (h : Header) (r : Reg) : (h.set .device r).address = h.address := rfl
@[simp] theorem Header.set_device_command (h : Header) (r : Reg) : (h.set .device r).command = h.command := rfl
@[simp] theorem Header.set_device_item (h : Header) (r : Reg) : (h.set .device r).item = h.item := rfl
@[simp] theorem Header.set_device_length (h : Header) (r : Reg) : (h.set .device r).length = h.length := rfl
@[simp] theorem Header.set_address_start (h : Header) (r : Reg) : (h.set .address r).start = h.start := rfl
@[simp] theorem Header.set_address_device (h : Header) (r : Reg) : (h.set .address r).device = h.device := rfl
@[simp] theorem Header.set_address_address (h : Header) (r : Reg) : (h.set .address r).address = r := rfl
@[simp] theorem Header.set_address_command (h : Header) (r : Reg) : (h.set .address r).command = h.command := rfl
@[simp] theorem Header.set_address_item (h : Header) (r : Reg) : (h.set .address r).item = h.item := rfl
@[simp] theorem Header.set_address_length (h : Header) (r : Reg) : (h.set .address r).length = h.length := rfl
@[simp] theorem Header.set_command_start (h : Header) (r : Reg) : (h.set .command r).start = h.start := rfl
@[simp] theorem Header.set_command_device (h : Header) (r : Reg) : (h.set .command r).device = h.device := rfl
@[simp] theorem Header.set_command_address (h : Header) (r : Reg) : (h.set .command r).address = h.address := rfl
@[simp] theorem Header.set_command_command (h : Header) (r : Reg) : (h.set .command r).command = r := rfl
@[simp] theorem Header.set_command_item (h : Header) (r : Reg) : (h.set .command r).item = h.item := rfl
@[simp] theorem Header.set_command_length (h : Header) (r : Reg) : (h.set .command r).length = h.length := rfl
@[simp] theorem Header.set_item_start (h : Header) (r : Reg) : (h.set .item r).start = h.start := rfl
@[simp] theorem Header.set_item_device (h : Header) (r : Reg) : (h.set .item r).device = h.device := rfl
@[simp] theorem Header.set_item_address (h : Header) (r : Reg) : (h.set .item r).address = h.address := rfl
@[simp] theorem Header.set_item_command (h : Header) (r : Reg) : (h.set .item r).command = h.command := rfl
@[simp] theorem Header.set_item_item (h : Header) (r : Reg) : (h.set .item r).item = r := rfl
@[simp] theorem Header.set_item_length (h : Header) (r : Reg) : (h.set .item r).length = h.length := rfl
@[simp] theorem Header.set_length_start (h : Header) (r : Reg) : (h.set .length r).start = h.start := rfl
@[simp] theorem Header.set_length_device (h : Header) (r : Reg) : (h.set .length r).device = h.device := rfl
@[simp] theorem Header.set_length_address (h : Header) (r : Reg) : (h.set .length r).address = h.address := rfl
@[simp] theorem Header.set_length_command (h : Header) (r : Reg) : (h.set .length r).command = h.command := rfl
@[simp] theorem Header.set_length_item (h : Header) (r : Reg) : (h.set .length r).item = h.item := rfl
@[simp] theorem Header.set_length_length (h : Header) (r : Reg) : (h.set .length r).length = r := rfl

@[simp] theorem Header.get_start (h : Header) : h.get .start = h.start := rfl
@[simp] theorem Header.get_device (h : Header) : h.get .device = h.device := rfl
@[simp] theorem Header.get_address (h : Header) : h.get .address = h.address := rfl
@[simp] theorem Header.get_command (h : Header) : h.get .command = h.command := rfl
@[simp] theorem Header.get_item (h : Header) : h.get .item = h.item := rfl
@[simp] theorem Header.get_length (h : Header) : h.get .length = h.length := rfl

/-- Read after write of a header register. -/
theorem Header.get_set (h : Header) (f g : HdrField) (r : Reg) : (h.set f r).get g = if g = f then r else h.get g := by
  cases f <;> cases g <;> rfl

end Sys2Proof.Machine
end

