-- ==== Sys2Proof/Laws/Ops.lean ====
section
/-! SUPPORT. What each shared operation can do, said once: the rules cite these instead of unfolding the operations. -/

namespace Sys2Proof

/-- The checksum width is the width of a byte (R5). -/
@[simp] theorem Config.checksumWidth_eq : Config.checksumWidth = 8 := rfl

end Sys2Proof

namespace Sys2Proof.Machine

/-! ## Registers -/

@[simp] theorem Reg.value_val (b free : Byte) : (Reg.val b).value free = b := rfl

@[simp] theorem Reg.value_unspec (free : Byte) : Reg.unspec.value free = free := rfl

@[simp] theorem Reg.minus_val (a b : Byte) : (Reg.val a).minus (.val b) = .val (a - b) := rfl

@[simp] theorem Reg.unspec_minus (b : Reg) : Reg.unspec.minus b = .unspec := by cases b <;> rfl

@[simp] theorem Reg.minus_unspec (a : Reg) : a.minus .unspec = .unspec := by cases a <;> rfl

@[simp] theorem Header.get_unspec (f : HdrField) : Header.unspec.get f = .unspec := by cases f <;> rfl

/-! ## Busy and the busy hazard -/

theorem State.busy_eq_false {s : State} (h : s.phase = .idle) : s.busy = false := by simp [State.busy, h]

theorem State.busy_eq_true {s : State} (h : s.phase ≠ .idle) : s.busy = true := by simp [State.busy, h]

/-- A guarded write is the plain write while idle. -/
theorem State.guardedWrite_idle {s : State} (t : State) (h : s.phase = .idle) : s.guardedWrite t = t := by
  simp [State.guardedWrite, State.busy_eq_false h]

/-- A guarded write is the hazard while busy. -/
theorem State.guardedWrite_busy {s : State} (t : State) (h : s.phase ≠ .idle) : s.guardedWrite t = s.busyHazard := by
  simp [State.guardedWrite, State.busy_eq_true h]

/-- A guarded write leaves one of two states. -/
theorem State.guardedWrite_cases (s t : State) :
    (s.phase = .idle ∧ s.guardedWrite t = t) ∨ (s.phase ≠ .idle ∧ s.guardedWrite t = s.busyHazard) := by
  by_cases h : s.phase = .idle
  · exact .inl ⟨h, State.guardedWrite_idle t h⟩
  · exact .inr ⟨h, State.guardedWrite_busy t h⟩

/-! ## Lengths -/

/-- A defined length register sequences by its byte. -/
theorem State.sequenceLength_val {s : State} {b : Byte} (h : s.hdr.length = .val b) : s.sequenceLength = b.toNat := by
  simp [State.sequenceLength, h]

/-- An `UNSPEC` length register sequences by some length of at most 120. -/
theorem State.sequenceLength_unspec {s : State} (h : s.hdr.length = .unspec) : s.sequenceLength ≤ 120 := by
  simp only [State.sequenceLength, h]
  omega

/-! ## Starting an encode -/

/-- The three outcomes of an accepted `ENC` (R120), on the length `len` that the acceptance sees. -/
theorem State.acceptEncode_cases (p : Bool) (s : State) :
    ∃ len : Byte, (∀ b, s.hdr.length = .val b → len = b) ∧
      ((Config.maxPayload < len.toNat ∧ s.acceptEncode p = s.acceptCommand.encodeFail .length) ∨
       (0 < len.toNat ∧ len.toNat ≤ Config.maxPayload ∧ p = false ∧
          s.acceptEncode p = s.acceptCommand.encodeFail .noPayload) ∨
       (len.toNat ≤ Config.maxPayload ∧ (0 < len.toNat → p = true) ∧
          s.acceptEncode p = s.acceptCommand.startEncode)) := by
  refine ⟨s.hdr.length.value (Config.drawByte s.tick), fun b h => by simp [h], ?_⟩
  by_cases h : Config.maxPayload < (s.hdr.length.value (Config.drawByte s.tick)).toNat
  · exact .inl ⟨h, by simp [State.acceptEncode, h]⟩
  · by_cases h' : 0 < (s.hdr.length.value (Config.drawByte s.tick)).toNat ∧ p = false
    · exact .inr (.inl ⟨h'.1, by omega, h'.2, by simp [State.acceptEncode, h, h'.1, h'.2]⟩)
    · exact .inr (.inr ⟨by omega, fun h0 => by simpa [h0] using h', by
        simp only [State.acceptEncode, if_neg h, if_neg h']⟩)

/-! ## Transmit steps -/

/-- A `TxAccept` either finds no byte presented, or moves one byte to the consumer and steps the sequencer. -/
theorem State.txAccept_cases (s : State) :
    (s.txReg = none ∧ s.txAccept = s) ∨
    ∃ r b, s.txReg = some r ∧ (∀ x, r = .val x → b = x) ∧
      s.txAccept = State.afterTx r { s with tx := s.tx ++ [b] } := by
  unfold State.txAccept
  cases h : s.txReg with
  | none => exact .inl ⟨rfl, rfl⟩
  | some r => exact .inr ⟨r, r.value (Config.drawByte s.tick), rfl, fun x hx => by simp [hx], rfl⟩

/-! ## Receive steps -/

/-- An offered receive event finds an empty stream, a byte that must wait, a byte that is taken, or the end of the
stream. -/
theorem State.rxOffer_cases (s : State) :
    (s.rx = [] ∧ s.rxOffer = s) ∨
    (∃ b rest, s.rx = .byte b :: rest ∧ s.rxReady = false ∧ s.rxOffer = s) ∨
    (∃ b rest, s.rx = .byte b :: rest ∧ s.rxReady = true ∧ s.rxOffer = State.rxByte b { s with rx := rest }) ∨
    (∃ rest, s.rx = .eos :: rest ∧ s.rxOffer = State.rxEos { s with rx := rest }) := by
  unfold State.rxOffer
  rcases h : s.rx with _ | ⟨_ | _, rest⟩
  · exact .inl ⟨rfl, rfl⟩
  · rename_i b
    by_cases hr : s.rxReady = true
    · exact .inr (.inr (.inl ⟨b, rest, rfl, hr, by simp [hr]⟩))
    · exact .inr (.inl ⟨b, rest, rfl, by simpa using hr, by simp [hr]⟩)
  · exact .inr (.inr (.inr ⟨rest, rfl, rfl⟩))

/-- The header check ends in `MARKER`, in `LENGTH`, or in the body selection; a defined marker and length decide which
(R142). -/
theorem State.headerCheck_cases (s : State) :
    ∃ m len : Byte, (∀ b, s.hdr.start = .val b → m = b) ∧ (∀ b, s.hdr.length = .val b → len = b) ∧
      ((m ≠ Config.startMarker ∧ s.headerCheck = s.decodeFail .marker) ∨
       (m = Config.startMarker ∧ Config.maxPayload < len.toNat ∧ s.headerCheck = s.decodeFail .length) ∨
       (m = Config.startMarker ∧ len.toNat ≤ Config.maxPayload ∧ s.headerCheck = s.selectBody)) := by
  refine ⟨s.hdr.start.value (Config.drawByte s.tick), s.hdr.length.value (Config.drawByte s.tick),
    fun b h => by simp [h], fun b h => by simp [h], ?_⟩
  unfold State.headerCheck
  split
  · exact .inl ⟨by assumption, rfl⟩
  · rename_i h
    split
    · exact .inr (.inl ⟨by simpa using h, by assumption, rfl⟩)
    · exact .inr (.inr ⟨by simpa using h, by omega, rfl⟩)

/-- The checksum comparison succeeds or fails, and a defined `ACC` decides which (R146). -/
theorem State.rxCk_cases (b : Byte) (s : State) :
    ((∀ a, s.acc = .val a → a = b) ∧
      s.rxCk b = (State.settleOffset { s with rxck := .val b }).completeOk) ∨
    ((∀ a, s.acc = .val a → a ≠ b) ∧ s.rxCk b = State.decodeFail .checksum { s with rxck := .val b }) := by
  unfold State.rxCk
  by_cases h : s.accMatches b = true
  · exact .inl ⟨fun a ha => by simpa [State.accMatches, ha] using h, by simp [h]⟩
  · exact .inr ⟨fun a ha => by simpa [State.accMatches, ha] using h, by simp [h]⟩

/-- A taken byte leaves `FAIL` as it was or 0, or fails the decode with `MARKER`, `LENGTH` or `CHECKSUM` from a state with
the same payload buffer. -/
theorem State.rxByte_fails (b : Byte) (s : State) :
    (s.rxByte b).fail = s.fail ∨ (s.rxByte b).fail = false ∨
    ∃ c t, (c = .marker ∨ c = .length ∨ c = .checksum) ∧ t.pbuf = s.pbuf ∧ s.rxByte b = State.decodeFail c t := by
  unfold State.rxByte
  split
  · unfold State.rxHdr
    dsimp only
    split
    · exact .inl rfl
    · obtain ⟨m, len, -, -, ⟨-, e⟩ | ⟨-, -, e⟩ | ⟨-, -, e⟩⟩ := State.headerCheck_cases
        (State.subtract (.val b) { s with hdr := s.hdr.set (hdrFieldOf s.idx.toNat) (.val b) })
      · exact .inr (.inr ⟨.marker, _, .inl rfl, rfl, e⟩)
      · exact .inr (.inr ⟨.length, _, .inr (.inl rfl), rfl, e⟩)
      · exact .inl (by rw [e]; rfl)
  · unfold State.rxOfs
    dsimp only
    split <;> exact .inl rfl
  · unfold State.rxPay
    dsimp only
    split <;> exact .inl rfl
  · obtain ⟨-, e⟩ | ⟨-, e⟩ := State.rxCk_cases b s
    · exact .inr (.inl (by rw [e]; rfl))
    · exact .inr (.inr ⟨.checksum, _, .inr (.inr rfl), rfl, e⟩)
  all_goals exact .inl rfl

/-- The block's readiness for a receive event is a matter of the phase alone. -/
theorem State.rxReady_congr {s t : State} (h : t.phase = s.phase) : t.rxReady = s.rxReady := by
  simp [State.rxReady, h]

end Sys2Proof.Machine
end

