-- ==== Sys2Proof/Laws/Step.lean ====
section
/-! SUPPORT. What a step can do, said once, and runs of several steps. -/

namespace Sys2Proof.Machine

/-- Every meaning answers a next state: the block never traps and never halts (R200). -/
theorem exec_next (i : Instr) (s : State) : ∃ t, exec i s = .next t := by
  cases i <;> exact ⟨_, rfl⟩

/-- Every event answers a next state. -/
theorem performEvent_next (e : Event) (s : State) : ∃ t, performEvent e s = .next t := by
  cases e with
  | host w => exact exec_next (decode w) s
  | txAccept => exact ⟨_, rfl⟩
  | rxOffer => exact ⟨_, rfl⟩
  | reset => exact ⟨_, rfl⟩

/-- Every step answers a next state. -/
theorem step_next (s : State) : ∃ t, step s = .next t := by
  unfold step
  split
  · exact ⟨_, rfl⟩
  · exact performEvent_next _ _

theorem step_empty {s : State} (h : s.agenda = []) : step s = .next s := by
  simp [step, State.nextEvent, h]

/-- A step performs the agenda's first event on the state that has taken it. -/
theorem step_cons {s : State} {e : Event} {rest : List Event} (h : s.agenda = e :: rest) :
    step s = performEvent e { s with agenda := rest, tick := s.tick + 1 } := by
  simp [step, State.nextEvent, h]

/-- What one step can do: nothing for want of an event, a host access, an acceptance, a delivery, or a reset. -/
theorem step_cases {s t : State} (h : step s = .next t) :
    (s.agenda = [] ∧ t = s) ∨
    ∃ rest, ∃ taken : State, taken = { s with agenda := rest, tick := s.tick + 1 } ∧
      ((∃ w, s.agenda = .host w :: rest ∧ exec (decode w) taken = .next t) ∨
       (s.agenda = .txAccept :: rest ∧ t = taken.txAccept) ∨
       (s.agenda = .rxOffer :: rest ∧ t = taken.rxOffer) ∨
       (s.agenda = .reset :: rest ∧ t = taken.resetBlock)) := by
  cases ha : s.agenda with
  | nil =>
    rw [step_empty ha] at h
    exact .inl ⟨rfl, by simpa using h.symm⟩
  | cons e rest =>
    rw [step_cons ha] at h
    refine .inr ⟨rest, _, rfl, ?_⟩
    cases e with
    | host w => exact .inl ⟨w, rfl, h⟩
    | txAccept => exact .inr (.inl ⟨rfl, by simpa [performEvent] using h.symm⟩)
    | rxOffer => exact .inr (.inr (.inl ⟨rfl, by simpa [performEvent] using h.symm⟩))
    | reset => exact .inr (.inr (.inr ⟨rfl, by simpa [performEvent] using h.symm⟩))

/-! ## Runs -/

theorem run_zero (s : State) : Host.Core.run Sys2Proof.core 0 s = .next s := rfl

theorem run_succ {s t : State} (k : Nat) (h : step s = .next t) :
    Host.Core.run Sys2Proof.core (k + 1) s = Host.Core.run Sys2Proof.core k t := by
  have h' : Sys2Proof.core.step s = .next t := h
  simp only [Host.Core.run, h']

/-- Two runs in a row are one run. -/
theorem run_add {s t : State} (j k : Nat) (h : Host.Core.run Sys2Proof.core j s = .next t) :
    Host.Core.run Sys2Proof.core (j + k) s = Host.Core.run Sys2Proof.core k t := by
  induction j generalizing s with
  | zero =>
    cases h
    rw [Nat.zero_add]
  | succ j ih =>
    cases hs : step s with
    | next s' =>
      rw [run_succ j hs] at h
      rw [show j + 1 + k = (j + k) + 1 by omega, run_succ (j + k) hs]
      exact ih h
    | fault r => exact nomatch r
    | refused r =>
      have h' : Sys2Proof.core.step s = .refused r := hs
      simp [Host.Core.run, h'] at h

end Sys2Proof.Machine
end

