-- ==== Sys2Proof/Laws/Checked.lean ====
section
/-! SUPPORT. The step that stops at program faults (spec/92_eei_decisions.md D36) against the block's own step: what it can
do, said once, and its runs. -/

namespace Sys2Proof.Safety

open Sys2Proof.Machine

/-! ## Program faults -/

/-- When an access is no program fault: it is no busy write, no encode of an `UNSPEC` length, and no read of `UNSPEC`. -/
theorem accessFault_eq_false_iff (i : Instr) (s : State) :
    accessFault i s = false ↔
      (isGuardedWrite i = true → s.busy = false) ∧ (isEncode i = true → s.hdr.length ≠ .unspec) ∧
      ∀ r, readRegister i s = some r → s.busy = false ∧ r ≠ .unspec := by
  unfold accessFault accessFaultOf
  split
  · rename_i h
    simp only [Bool.and_eq_true] at h
    simp [h.1, h.2]
  · rename_i hw
    split
    · rename_i h
      simp only [Bool.and_eq_true, beq_iff_eq] at h
      simp [h.1, h.2]
    · rename_i he
      simp only [Bool.and_eq_true, beq_iff_eq, not_and, Bool.not_eq_true] at hw he
      cases hr : readRegister i s with
      | none => simpa using ⟨hw, he⟩
      | some r =>
        by_cases hu : (s.busy || r == .unspec) = true
        · simp only [if_pos hu, Option.isSome_some, Bool.true_eq_false, false_iff]
          rintro ⟨-, -, h⟩
          simp [h r rfl] at hu
        · simp only [if_neg hu, Option.isSome_none, true_iff]
          refine ⟨hw, he, fun r' h => ?_⟩
          cases h
          simpa using hu

/-- A host access is a program fault as `accessFault` says, in the state that has taken the event. -/
theorem programFault_host {s : State} {w : HostWord} {rest : List Event} (h : s.agenda = .host w :: rest) :
    programFault s = accessFault (decode w) { s with agenda := rest, tick := s.tick + 1 } := by
  simp [programFault, programFaultOf, State.nextEvent, h, accessFault]

/-- An acceptance is a program fault exactly where the presented byte is `UNSPEC`. -/
theorem programFault_txAccept {s : State} {rest : List Event} (h : s.agenda = .txAccept :: rest) :
    programFault s = true ↔ s.txReg = some .unspec := by
  have ht : ({ s with agenda := rest, tick := s.tick + 1 } : State).txReg = s.txReg := rfl
  by_cases hu : s.txReg = some .unspec <;> simp [programFault, programFaultOf, State.nextEvent, h, ht, hu]

/-! ## The checked step -/

/-- At a program fault the checked step stops with it. -/
theorem checkedStep_of_programFaultOf {s : State} {f : ProgramFault} (h : programFaultOf s = some f) :
    checkedStep s = .fault f := by
  simp [checkedStep, h]

/-- At every other step the checked step is the block's own. -/
theorem checkedStep_of_clean {s t : State} (h : programFault s = false) (hs : step s = .next t) :
    checkedStep s = .next t := by
  have hn : programFaultOf s = none := by simpa [programFault] using h
  simp [checkedStep, hn, hs]

/-- What a checked step can do: stop with the program fault, or step as the block does. -/
theorem checkedStep_cases (s : State) :
    (∃ f, programFaultOf s = some f ∧ programFault s = true ∧ checkedStep s = .fault f) ∨
    (∃ t, programFault s = false ∧ step s = .next t ∧ checkedStep s = .next t) := by
  cases h : programFaultOf s with
  | some f => exact .inl ⟨f, rfl, by simp [programFault, h], checkedStep_of_programFaultOf h⟩
  | none =>
    have hc : programFault s = false := by simp [programFault, h]
    obtain ⟨t, ht⟩ := step_next s
    exact .inr ⟨t, hc, ht, checkedStep_of_clean hc ht⟩

/-- The checked machine reaches a state exactly by the block's runs that are clean. -/
theorem checkedCore_run_next (k : Nat) (s t : State) :
    Host.Core.run checkedCore k s = .next t ↔
      cleanRun k s = true ∧ Host.Core.run Sys2Proof.core k s = .next t := by
  induction k generalizing s with
  | zero => exact ⟨fun h => by cases h; exact ⟨rfl, rfl⟩, fun h => by cases h.2; rfl⟩
  | succ k ih =>
    obtain ⟨f, -, hp, hc⟩ | ⟨u, hp, hs, hc⟩ := checkedStep_cases s
    · have hc' : checkedCore.step s = .fault f := hc
      simp [Host.Core.run, hc', cleanRun, hp]
    · have hc' : checkedCore.step s = .next u := hc
      rw [run_succ k hs]
      simp only [Host.Core.run, hc', cleanRun, hp, hs, Bool.not_false, Bool.true_and]
      exact ih u

end Sys2Proof.Safety
end

