-- ==== Sys2Proof/Laws/Decode.lean ====
section
/-! SUPPORT. The fields of a host word (R70) and the decoder's choices: what a proof about encodings cites. -/

namespace Sys2Proof

@[simp] theorem wordIsWrite_hostWord (w : Bool) (a d : Byte) : wordIsWrite (hostWord w a d) = w := by
  unfold wordIsWrite hostWord
  rw [BitVec.getLsbD_append, BitVec.getLsbD_append]
  simp

@[simp] theorem wordAddress_hostWord (w : Bool) (a d : Byte) : wordAddress (hostWord w a d) = a := by
  unfold wordAddress hostWord
  apply BitVec.eq_of_getLsbD_eq
  intro i hi
  rw [BitVec.getLsbD_extractLsb', BitVec.getLsbD_append, BitVec.getLsbD_append]
  simp [hi, show ¬ 8 + i < 8 by omega]

@[simp] theorem wordData_hostWord (w : Bool) (a d : Byte) : wordData (hostWord w a d) = d := by
  unfold wordData hostWord
  apply BitVec.eq_of_getLsbD_eq
  intro i hi
  rw [BitVec.getLsbD_extractLsb', BitVec.getLsbD_append]
  simp [hi]

/-- A host word is its three fields. -/
theorem hostWord_fields (w : HostWord) : hostWord (wordIsWrite w) (wordAddress w) (wordData w) = w := by
  unfold hostWord wordIsWrite wordAddress wordData
  apply BitVec.eq_of_getLsbD_eq
  intro i hi
  rw [BitVec.getLsbD_append, BitVec.getLsbD_append]
  by_cases h : i < 8
  · simp [h]
  · by_cases h' : i < 16
    · simp [h, show i - 8 < 8 by omega, show 8 + (i - 8) = i by omega]
    · simp [show i = 16 by omega]

theorem decode_write (a d : Byte) : decode (hostWord true a d) = decodeWrite a d := by simp [decode]

theorem decode_read (a d : Byte) : decode (hostWord false a d) = decodeRead a := by simp [decode]

/-- The payload buffer's window: the address of index `i` (R51). -/
theorem pbuf_address_bits (i : BitVec 7) :
    (1#1 ++ i : Byte).getLsbD 7 = true ∧ (1#1 ++ i : Byte).extractLsb' 0 7 = i ∧ 0x80 ≤ (1#1 ++ i : Byte).toNat := by
  revert i
  decide

/-- Every address from 0x80 on is that of one index (R51). -/
theorem pbuf_address_of (a : Byte) (h : a.getLsbD 7 = true) : (1#1 ++ a.extractLsb' 0 7 : Byte) = a := by
  revert a
  decide

/-- The locations that no named register and no payload byte has are the reserved ones (R51, R52). -/
theorem reserved_location_cases (a : Byte) :
    a.toNat ∈ [0, 1, 2, 3, 4, 6, 7, 8, 9, 10, 11, 12, 13] ∨ a.getLsbD 7 = true ∨
    (isReservedLocation a = true ∧ a.getLsbD 7 = false) := by
  revert a
  decide

end Sys2Proof
end

