-- ==== Sys2Proof/Laws/PerInstr.lean ====
section
/-! SUPPORT. The family of per-instruction statements about encodings: the word of an instruction has the fixed bits of a
row of the opcode table that carries the instruction's mnemonic (spec/30_encoding.md R72, R75, R80). -/

namespace Sys2Proof

/-- Row `k` of the opcode table fits the instruction: its mnemonic, and the word's fixed bits. -/
theorem tableRow_of_row {i : Instr} (k : Nat) (hk : k < opcodeTable.length)
    (hm : opcodeTable[k].mnemonic = i.mnemonic) (hw : opcodeTable[k].matchesWord (encode i) = true) :
    ∃ r ∈ opcodeTable, r.mnemonic = i.mnemonic ∧ r.matchesWord (encode i) = true :=
  ⟨opcodeTable[k], List.getElem_mem hk, hm, hw⟩

/-- A row that fixes no bit of `D` matches a word whatever its `D` is. -/
theorem matchesWord_anyData (r : OpcodeRow) (w : Bool) (a d : Byte) (hr : r.mask &&& 0xFF = 0)
    (h : r.matchesWord (hostWord w a 0) = true) : r.matchesWord (hostWord w a d) = true := by
  have key : hostWord w a d &&& r.mask = hostWord w a 0 &&& r.mask := by
    apply BitVec.eq_of_getLsbD_eq
    intro j hj
    rw [BitVec.getLsbD_and, BitVec.getLsbD_and]
    by_cases h8 : j < 8
    · have hz : (r.mask &&& 0xFF).getLsbD j = false := by rw [hr]; simp
      have hf : (0xFF : HostWord).getLsbD j = true := by interval_cases j <;> decide
      rw [BitVec.getLsbD_and, hf, Bool.and_true] at hz
      simp [hz]
    · unfold hostWord
      congr 1
      rw [BitVec.getLsbD_append, BitVec.getLsbD_append (y := (0 : Byte)), if_neg h8, if_neg h8]
  simpa [OpcodeRow.matchesWord, key] using h

end Sys2Proof

namespace Sys2Proof.Laws.TableRow

/-- The encoding of a well-formed instruction lies in a row of the opcode table with the instruction's mnemonic. -/
def Statement (i : Instr) : Prop :=
  i.wellFormed = true → ∃ r ∈ opcodeTable, r.mnemonic = i.mnemonic ∧ r.matchesWord (encode i) = true

theorem ckclr : Statement .ckclr :=
  fun _ => tableRow_of_row 0 (by decide) rfl (by decide)

theorem enc : Statement .enc :=
  fun _ => tableRow_of_row 1 (by decide) rfl (by decide)

theorem encP : Statement .encP :=
  fun _ => tableRow_of_row 2 (by decide) rfl (by decide)

theorem dec : Statement .dec :=
  fun _ => tableRow_of_row 3 (by decide) rfl (by decide)

/-- Every reserved command byte lies in one of the table's ten rows of them (R74). -/
theorem ctrlRsvd_rows (d : Byte) (h : isReservedCommand d = true) :
      opcodeTable[4].matchesWord (encode (.ctrlRsvd d)) = true ∨
      opcodeTable[5].matchesWord (encode (.ctrlRsvd d)) = true ∨
      opcodeTable[6].matchesWord (encode (.ctrlRsvd d)) = true ∨
      opcodeTable[7].matchesWord (encode (.ctrlRsvd d)) = true ∨
      opcodeTable[8].matchesWord (encode (.ctrlRsvd d)) = true ∨
      opcodeTable[9].matchesWord (encode (.ctrlRsvd d)) = true ∨
      opcodeTable[10].matchesWord (encode (.ctrlRsvd d)) = true ∨
      opcodeTable[11].matchesWord (encode (.ctrlRsvd d)) = true ∨
      opcodeTable[12].matchesWord (encode (.ctrlRsvd d)) = true ∨
      opcodeTable[13].matchesWord (encode (.ctrlRsvd d)) = true := by
  revert d
  decide

theorem ctrlRsvd (d : Byte) : Statement (.ctrlRsvd d) := by
  intro hw
  obtain h | h | h | h | h | h | h | h | h | h := ctrlRsvd_rows d hw
  · exact tableRow_of_row 4 (by decide) rfl h
  · exact tableRow_of_row 5 (by decide) rfl h
  · exact tableRow_of_row 6 (by decide) rfl h
  · exact tableRow_of_row 7 (by decide) rfl h
  · exact tableRow_of_row 8 (by decide) rfl h
  · exact tableRow_of_row 9 (by decide) rfl h
  · exact tableRow_of_row 10 (by decide) rfl h
  · exact tableRow_of_row 11 (by decide) rfl h
  · exact tableRow_of_row 12 (by decide) rfl h
  · exact tableRow_of_row 13 (by decide) rfl h

theorem wrStatus (d : Byte) : Statement (.wrStatus d) :=
  fun _ => tableRow_of_row 14 (by decide) rfl (matchesWord_anyData _ true _ d (by decide) (by decide))

theorem wrAcc (d : Byte) : Statement (.wrAcc d) :=
  fun _ => tableRow_of_row 15 (by decide) rfl (matchesWord_anyData _ true _ d (by decide) (by decide))

theorem ckbyte (d : Byte) : Statement (.ckbyte d) :=
  fun _ => tableRow_of_row 16 (by decide) rfl (matchesWord_anyData _ true _ d (by decide) (by decide))

theorem wrRxck (d : Byte) : Statement (.wrRxck d) :=
  fun _ => tableRow_of_row 17 (by decide) rfl (matchesWord_anyData _ true _ d (by decide) (by decide))

/-- Every reserved location lies in one of the table's five rows of them (R52). -/
theorem wrRsvd_rows (a : Byte) (h : isReservedLocation a = true) :
      opcodeTable[18].matchesWord (hostWord true a 0) = true ∨
      opcodeTable[27].matchesWord (hostWord true a 0) = true ∨
      opcodeTable[28].matchesWord (hostWord true a 0) = true ∨
      opcodeTable[29].matchesWord (hostWord true a 0) = true ∨
      opcodeTable[30].matchesWord (hostWord true a 0) = true := by
  revert a
  decide

theorem wrRsvd (a d : Byte) : Statement (.wrRsvd a d) := by
  intro hw
  obtain h | h | h | h | h := wrRsvd_rows a hw
  · exact tableRow_of_row 18 (by decide) rfl (matchesWord_anyData _ true a d (by decide) h)
  · exact tableRow_of_row 27 (by decide) rfl (matchesWord_anyData _ true a d (by decide) h)
  · exact tableRow_of_row 28 (by decide) rfl (matchesWord_anyData _ true a d (by decide) h)
  · exact tableRow_of_row 29 (by decide) rfl (matchesWord_anyData _ true a d (by decide) h)
  · exact tableRow_of_row 30 (by decide) rfl (matchesWord_anyData _ true a d (by decide) h)

theorem wrOfsLo (d : Byte) : Statement (.wrOfsLo d) :=
  fun _ => tableRow_of_row 19 (by decide) rfl (matchesWord_anyData _ true _ d (by decide) (by decide))

theorem wrOfsHi (d : Byte) : Statement (.wrOfsHi d) :=
  fun _ => tableRow_of_row 20 (by decide) rfl (matchesWord_anyData _ true _ d (by decide) (by decide))

theorem wrHdrStart (d : Byte) : Statement (.wrHdrStart d) :=
  fun _ => tableRow_of_row 21 (by decide) rfl (matchesWord_anyData _ true _ d (by decide) (by decide))

theorem wrHdrDevice (d : Byte) : Statement (.wrHdrDevice d) :=
  fun _ => tableRow_of_row 22 (by decide) rfl (matchesWord_anyData _ true _ d (by decide) (by decide))

theorem wrHdrAddress (d : Byte) : Statement (.wrHdrAddress d) :=
  fun _ => tableRow_of_row 23 (by decide) rfl (matchesWord_anyData _ true _ d (by decide) (by decide))

theorem wrHdrCommand (d : Byte) : Statement (.wrHdrCommand d) :=
  fun _ => tableRow_of_row 24 (by decide) rfl (matchesWord_anyData _ true _ d (by decide) (by decide))

theorem wrHdrItem (d : Byte) : Statement (.wrHdrItem d) :=
  fun _ => tableRow_of_row 25 (by decide) rfl (matchesWord_anyData _ true _ d (by decide) (by decide))

theorem wrHdrLength (d : Byte) : Statement (.wrHdrLength d) :=
  fun _ => tableRow_of_row 26 (by decide) rfl (matchesWord_anyData _ true _ d (by decide) (by decide))

theorem wrPbuf_row (i : BitVec 7) : opcodeTable[31].matchesWord (hostWord true (1#1 ++ i) 0) = true := by
  revert i
  decide

theorem wrPbuf (i : BitVec 7) (d : Byte) : Statement (.wrPbuf i d) :=
  fun _ => tableRow_of_row 31 (by decide) rfl (matchesWord_anyData _ true _ d (by decide) (wrPbuf_row i))

theorem rdCtrl : Statement .rdCtrl :=
  fun _ => tableRow_of_row 32 (by decide) rfl (by decide)

theorem rdStatus : Statement .rdStatus :=
  fun _ => tableRow_of_row 33 (by decide) rfl (by decide)

theorem rdAcc : Statement .rdAcc :=
  fun _ => tableRow_of_row 34 (by decide) rfl (by decide)

theorem rdCkdata : Statement .rdCkdata :=
  fun _ => tableRow_of_row 35 (by decide) rfl (by decide)

theorem rdRxck : Statement .rdRxck :=
  fun _ => tableRow_of_row 36 (by decide) rfl (by decide)

/-- Every reserved location lies in one of the table's five rows of them (R52). -/
theorem rdRsvd_rows (a : Byte) (h : isReservedLocation a = true) :
      opcodeTable[37].matchesWord (hostWord false a 0) = true ∨
      opcodeTable[46].matchesWord (hostWord false a 0) = true ∨
      opcodeTable[47].matchesWord (hostWord false a 0) = true ∨
      opcodeTable[48].matchesWord (hostWord false a 0) = true ∨
      opcodeTable[49].matchesWord (hostWord false a 0) = true := by
  revert a
  decide

theorem rdRsvd (a : Byte) : Statement (.rdRsvd a) := by
  intro hw
  obtain h | h | h | h | h := rdRsvd_rows a hw
  · exact tableRow_of_row 37 (by decide) rfl h
  · exact tableRow_of_row 46 (by decide) rfl h
  · exact tableRow_of_row 47 (by decide) rfl h
  · exact tableRow_of_row 48 (by decide) rfl h
  · exact tableRow_of_row 49 (by decide) rfl h

theorem rdOfsLo : Statement .rdOfsLo :=
  fun _ => tableRow_of_row 38 (by decide) rfl (by decide)

theorem rdOfsHi : Statement .rdOfsHi :=
  fun _ => tableRow_of_row 39 (by decide) rfl (by decide)

theorem rdHdrStart : Statement .rdHdrStart :=
  fun _ => tableRow_of_row 40 (by decide) rfl (by decide)

theorem rdHdrDevice : Statement .rdHdrDevice :=
  fun _ => tableRow_of_row 41 (by decide) rfl (by decide)

theorem rdHdrAddress : Statement .rdHdrAddress :=
  fun _ => tableRow_of_row 42 (by decide) rfl (by decide)

theorem rdHdrCommand : Statement .rdHdrCommand :=
  fun _ => tableRow_of_row 43 (by decide) rfl (by decide)

theorem rdHdrItem : Statement .rdHdrItem :=
  fun _ => tableRow_of_row 44 (by decide) rfl (by decide)

theorem rdHdrLength : Statement .rdHdrLength :=
  fun _ => tableRow_of_row 45 (by decide) rfl (by decide)

theorem rdPbuf_row (i : BitVec 7) : opcodeTable[50].matchesWord (hostWord false (1#1 ++ i) 0) = true := by
  revert i
  decide

theorem rdPbuf (i : BitVec 7) : Statement (.rdPbuf i) :=
  fun _ => tableRow_of_row 50 (by decide) rfl (rdPbuf_row i)

end Sys2Proof.Laws.TableRow
end

