-- ==== Sys2Proof/Tests/Slice0.lean ====
section
/-! SUPPORT. Tests of single steps against the vectors of spec/95_test_vectors.md and the examples of the rules, decoding
tests on words written out from the encodings, the well-formedness smoke tests, and for each obligation with hypotheses
a witness that meets them. -/

namespace Sys2Proof.Tests

open Sys2Proof Sys2Proof.Machine Sys2Proof.Safety

/-! ## Well-formedness: each check refuses an ill-formed term (R52, R74) -/

theorem test_wf_ctrlRsvd_refuses_commands :
    Instr.wellFormed (.ctrlRsvd 0x01) = false ∧ Instr.wellFormed (.ctrlRsvd 0x02) = false ∧
    Instr.wellFormed (.ctrlRsvd 0x12) = false ∧ Instr.wellFormed (.ctrlRsvd 0x03) = false := by decide

theorem test_wf_ctrlRsvd_admits_reserved :
    Instr.wellFormed (.ctrlRsvd 0x00) = true ∧ Instr.wellFormed (.ctrlRsvd 0x13) = true ∧
    Instr.wellFormed (.ctrlRsvd 0xFF) = true := by decide

theorem test_wf_wrRsvd_refuses_named :
    Instr.wellFormed (.wrRsvd 0x04 0) = false ∧ Instr.wellFormed (.wrRsvd 0x06 0) = false ∧
    Instr.wellFormed (.wrRsvd 0x0D 0) = false ∧ Instr.wellFormed (.wrRsvd 0x80 0) = false := by decide

theorem test_wf_rdRsvd_refuses_named :
    Instr.wellFormed (.rdRsvd 0x00) = false ∧ Instr.wellFormed (.rdRsvd 0x0D) = false ∧
    Instr.wellFormed (.rdRsvd 0xFF) = false := by decide

theorem test_wf_reserved_locations :
    Instr.wellFormed (.wrRsvd 0x05 9) = true ∧ Instr.wellFormed (.wrRsvd 0x0E 0) = true ∧
    Instr.wellFormed (.rdRsvd 0x7F) = true := by decide

/-! ## Decoding: words written out from format H (R70), the commands R72 and the register map R51 -/

theorem test_decode_commands :
    decode 0b1_00000000_00000001 = .ckclr ∧ decode 0b1_00000000_00000010 = .enc ∧
    decode 0b1_00000000_00010010 = .encP ∧ decode 0b1_00000000_00000011 = .dec ∧
    decode 0b1_00000000_00010011 = .ctrlRsvd 0x13 ∧ decode 0b1_00000000_00100010 = .ctrlRsvd 0x22 := by decide

theorem test_decode_ignored_writes :
    decode 0b1_00000001_11111111 = .wrStatus 0xFF ∧ decode 0b1_00000010_00010010 = .wrAcc 0x12 ∧
    decode 0b1_00000100_00000001 = .wrRxck 0x01 ∧ decode 0b1_00000101_10000000 = .wrRsvd 0x05 0x80 ∧
    decode 0b1_01111111_00000011 = .wrRsvd 0x7F 0x03 ∧ decode 0b1_00000110_00010010 = .wrOfsLo 0x12 ∧
    decode 0b1_00000111_00000000 = .wrOfsHi 0x00 := by decide

theorem test_decode_checksum_and_header_writes :
    decode 0b1_00000011_00010010 = .ckbyte 0x12 ∧ decode 0b1_00001000_10101010 = .wrHdrStart 0xAA ∧
    decode 0b1_00001001_00000001 = .wrHdrDevice 0x01 ∧ decode 0b1_00001010_00000000 = .wrHdrAddress 0x00 ∧
    decode 0b1_00001011_00000001 = .wrHdrCommand 0x01 ∧ decode 0b1_00001100_00001010 = .wrHdrItem 0x0A ∧
    decode 0b1_00001101_00000011 = .wrHdrLength 0x03 := by decide

theorem test_decode_payload_writes :
    decode 0b1_10000010_00011010 = .wrPbuf 2 0x1A ∧ decode 0b1_11111111_01011010 = .wrPbuf 127 0x5A := by decide

theorem test_decode_reads :
    decode 0b0_00000000_00000000 = .rdCtrl ∧ decode 0b0_00000001_00000000 = .rdStatus ∧
    decode 0b0_00000010_00000000 = .rdAcc ∧ decode 0b0_00000011_00000000 = .rdCkdata ∧
    decode 0b0_00000100_00000000 = .rdRxck ∧ decode 0b0_00000101_00000000 = .rdRsvd 0x05 ∧
    decode 0b0_00000110_00000000 = .rdOfsLo ∧ decode 0b0_00000111_00000000 = .rdOfsHi ∧
    decode 0b0_01000000_00000000 = .rdRsvd 0x40 := by decide

theorem test_decode_header_and_payload_reads :
    decode 0b0_00001000_00000000 = .rdHdrStart ∧ decode 0b0_00001001_00000000 = .rdHdrDevice ∧
    decode 0b0_00001010_00000000 = .rdHdrAddress ∧ decode 0b0_00001011_00000000 = .rdHdrCommand ∧
    decode 0b0_00001100_00000000 = .rdHdrItem ∧ decode 0b0_00001101_11111111 = .rdHdrLength ∧
    decode 0b0_10000000_00000000 = .rdPbuf 0 ∧ decode 0b0_11111111_00000000 = .rdPbuf 127 := by decide

theorem test_decodeTableWord_total_on_three_bytes :
    decodeTableWord 17 0x10003 = some .dec ∧ decodeTableWord 24 0x10003 = some .dec ∧
    decodeTableWord 24 0x20003 = none := by decide

/-! ## States for the tests -/

/-- The machine after reset with these events to come. -/
def start (agenda : List Event) : State := { State.reset with agenda := agenda }

/-- The header of the main example of section 3.1, with length `len`. -/
def exampleHeader (len : Byte) : Header :=
  { start := .val 0x00, device := .val 0x01, address := .val 0x00, command := .val 0x01, item := .val 0x00,
    length := .val len }

/-- An idle machine loaded with the main example of section 3.1. -/
def loaded (agenda : List Event) : State :=
  { start agenda with hdr := exampleHeader 3, pbuf := [(0, 0x00), (1, 0x00), (2, 0x1A)] }

/-- A machine in phase `p` at index `i` with accumulator `a`, header length `len` and marker, and receive stream `rx`. -/
def running (p : Phase) (i : BitVec 7) (a len : Byte) (rx : List RxEvent) (agenda : List Event) : State :=
  { loaded agenda with phase := p, idx := i, acc := .val a, rx := rx,
                       hdr := { exampleHeader len with start := .val 0xAA } }

/-- The state that a meaning leaves. -/
def after (i : Instr) (s : State) : State :=
  match exec i s with
  | .next t => t
  | .fault _ => s
  | .refused _ => s

/-- The state that the next step leaves. -/
def stepped (s : State) : State :=
  match step s with
  | .next t => t
  | .fault _ => s
  | .refused _ => s

/-! ## Single steps: the checksum unit (vectors 2.2, examples of R102, R103) -/

theorem test_ckclr :
    (after .ckclr { start [] with acc := .val 0x5C }).acc = .val 0x00 ∧
    (after .ckclr { start [] with acc := .val 0x5C }).statusByte = 0x02 := by decide

theorem test_ckbyte_wraps : (after (.ckbyte 0x01) (start [])).acc = .val 0xFF := by decide

theorem test_ckbyte_subtracts :
    (after (.ckbyte 0xFF) { start [] with acc := .val 0x01 }).acc = .val 0x02 ∧
    (after (.ckbyte 0xAA) (start [])).acc = .val 0x56 := by decide

theorem test_ck8_vectors :
    ck8 [] = 0x00 ∧ ck8 [0x80, 0x80] = 0x00 ∧ ck8 [0x12, 0x34, 0x56] = 0x64 ∧
    ck8 [0xAA, 0x01, 0x00, 0x01, 0x00, 0x03, 0x00, 0x00, 0x1A] = 0x37 := by decide

/-! ## Single steps: the commands (vectors 3.2, 6; examples of R120, R183) -/

theorem test_enc_without_payload :
    (after .enc { start [] with hdr := exampleHeader 0 }).statusByte = 0x01 ∧
    (after .enc { start [] with hdr := exampleHeader 5 }).statusByte = 0x24 := by decide

theorem test_enc_length_before_nopayload :
    (after .enc { start [] with hdr := exampleHeader 0xC8 }).statusByte = 0x14 := by decide

theorem test_encP_accepts :
    (after .encP (loaded [])).statusByte = 0x01 ∧ (after .encP (loaded [])).hdr.start = .val 0xAA ∧
    (after .encP { start [] with hdr := exampleHeader 0x78 }).statusByte = 0x01 := by decide

theorem test_encP_length_121 :
    (after .encP { start [] with hdr := exampleHeader 0x79, acc := .val 0x37 }).statusByte = 0x14 ∧
    (after .encP { start [] with hdr := exampleHeader 0x79, acc := .val 0x37 }).acc = .val 0x37 := by decide

theorem test_dec_starts :
    (after .dec { start [] with acc := .val 0x37, ok := true }).statusByte = 0x01 ∧
    (after .dec { start [] with acc := .val 0x37, ok := true }).acc = .val 0x00 := by decide

theorem test_ctrlRsvd :
    (after (.ctrlRsvd 0x00) (start [])).statusByte = 0x64 ∧ (after (.ctrlRsvd 0x22) (start [])).acc = .val 0x00 := by
  decide

/-! ## Single steps: register access (vectors 6) -/

theorem test_ignored_writes_busy :
    after (.wrStatus 0xFF) (running .decHdr 2 0 0 [] []) = running .decHdr 2 0 0 [] [] ∧
    after (.wrRsvd 0x40 0xFF) (running .decHdr 2 0 0 [] []) = running .decHdr 2 0 0 [] [] := by decide

theorem test_ignored_writes_idle :
    after (.wrAcc 0x12) (loaded []) = loaded [] ∧ after (.wrRxck 0x12) (loaded []) = loaded [] ∧
    after (.wrOfsLo 0x12) (loaded []) = loaded [] ∧ after (.wrOfsHi 0x12) (loaded []) = loaded [] := by decide

theorem test_wrHdr_low :
    (after (.wrHdrStart 0x11) (start [])).hdr.start = .val 0x11 ∧
    (after (.wrHdrDevice 0x12) (start [])).hdr.device = .val 0x12 ∧
    (after (.wrHdrAddress 0x13) (start [])).hdr.address = .val 0x13 := by decide

theorem test_wrHdr_high :
    (after (.wrHdrCommand 0x7F) (start [])).hdr.command = .val 0x7F ∧
    (after (.wrHdrItem 0x0A) (start [])).hdr.item = .val 0x0A ∧
    (after (.wrHdrLength 0xC8) (start [])).hdr.length = .val 0xC8 := by decide

theorem test_wrPbuf_top :
    (after (.wrPbuf 127 0x5A) (loaded [])).pbuf.read 127 = .val 0x5A ∧
    (after (.wrPbuf 127 0x5A) (loaded [])).pbuf.read 2 = .val 0x1A := by decide

/-- A header write while busy is a hazard (R234). -/
theorem test_wrHdr_busy :
    (after (.wrHdrLength 0x05) (running .encPay 1 0 3 [] [])).hdr.length = .unspec ∧
    (after (.wrHdrLength 0x05) (running .encPay 1 0 3 [] [])).statusByte = 0x01 := by decide

theorem test_constant_reads :
    (after .rdCtrl (running .encHdr 0 0 3 [] [])).reads = [0x00] ∧ (after .rdCkdata (start [])).reads = [0x00] ∧
    (after (.rdRsvd 0x40) (start [])).reads = [0x00] := by decide

theorem test_rdStatus :
    (after .rdStatus (running .encHdr 0 0 3 [] [])).reads = [0x01] ∧
    (after .rdStatus { start [] with fail := true, err := 5 }).reads = [0x54] := by decide

/-- The result registers after the decode of vector 4.1. -/
theorem test_result_reads :
    (after .rdAcc { start [] with acc := .val 0x0B }).reads = [0x0B] ∧
    (after .rdRxck { start [] with rxck := .val 0x0B }).reads = [0x0B] ∧
    (after .rdOfsLo { start [] with ofsLo := .val 0x34, ofsHi := .val 0x12 }).reads = [0x34] ∧
    (after .rdOfsHi { start [] with ofsLo := .val 0x34, ofsHi := .val 0x12 }).reads = [0x12] := by decide

theorem test_rdHdr_low :
    (after .rdHdrStart (running .idle 0 0 3 [] [])).reads = [0xAA] ∧
    (after .rdHdrDevice (loaded [])).reads = [0x01] ∧ (after .rdHdrAddress (loaded [])).reads = [0x00] := by decide

theorem test_rdHdr_high :
    (after .rdHdrCommand (loaded [])).reads = [0x01] ∧ (after .rdHdrItem (loaded [])).reads = [0x00] ∧
    (after .rdHdrLength (loaded [])).reads = [0x03] := by decide

theorem test_rdPbuf : (after (.rdPbuf 2) (loaded [])).reads = [0x1A] := by decide

/-! ## Single steps: the streams (examples of R125 to R127, R141, R145 to R147; vectors 4.2) -/

theorem test_tx_header_byte :
    (stepped (running .encHdr 0 0x00 3 [] [.txAccept])).tx = [0xAA] ∧
    (stepped (running .encHdr 0 0x00 3 [] [.txAccept])).acc = .val 0x56 ∧
    (stepped (running .encHdr 5 0x00 0 [] [.txAccept])).phase = .encCk := by decide

theorem test_tx_payload_byte :
    (stepped (running .encPay 2 0x51 3 [] [.txAccept])).acc = .val 0x37 ∧
    (stepped (running .encPay 2 0x51 3 [] [.txAccept])).phase = .encCk := by decide

theorem test_tx_checksum_byte :
    (stepped (running .encCk 0 0x37 3 [] [.txAccept])).tx = [0x37] ∧
    (stepped (running .encCk 0 0x37 3 [] [.txAccept])).statusByte = 0x02 := by decide

theorem test_rx_header_byte :
    (stepped (running .decHdr 0 0x00 0 [.byte 0xAA] [.rxOffer])).acc = .val 0x56 ∧
    (stepped (running .decHdr 0 0x00 0 [.byte 0xAA] [.rxOffer])).idx = 1 := by decide

theorem test_rx_header_check :
    (stepped { running .decHdr 5 0 0 [.byte 0xC8] [.rxOffer] with hdr := exampleHeader 0 }).statusByte = 0x44 ∧
    (stepped (running .decHdr 5 0 0 [.byte 0x79] [.rxOffer])).statusByte = 0x14 ∧
    (stepped (running .decHdr 5 0 0 [.byte 0x01] [.rxOffer])).phase = .decCk ∧
    (stepped (running .decHdr 5 0 0 [.byte 0x02] [.rxOffer])).phase = .decOfs := by decide

theorem test_rx_payload_byte :
    (stepped (running .decPay 0 0 3 [.byte 0x7F] [.rxOffer])).pbuf.read 0 = .val 0x7F ∧
    (stepped (running .decPay 0 0 3 [.byte 0x7F] [.rxOffer])).phase = .decCk ∧
    (stepped (running .decPay 0 0 4 [.byte 0x7F] [.rxOffer])).idx = 1 := by decide

theorem test_rx_checksum_byte :
    (stepped (running .decCk 0 0x0B 4 [.byte 0x0B] [.rxOffer])).statusByte = 0x02 ∧
    (stepped (running .decCk 0 0x0B 4 [.byte 0x0C] [.rxOffer])).statusByte = 0x54 ∧
    (stepped (running .decCk 0 0x0B 4 [.byte 0x0C] [.rxOffer])).rxck = .unspec := by decide

theorem test_rx_short :
    (stepped (running .decHdr 3 0 0 [.eos] [.rxOffer])).statusByte = 0x34 ∧
    (stepped (running .idle 0 0 0 [.eos] [.rxOffer])).rx = [] ∧
    (stepped (running .idle 0 0 0 [.byte 1] [.rxOffer])).rx = [.byte 1] := by decide

theorem test_reset_event :
    (stepped { running .encHdr 4 0x12 3 [] [.reset] with tx := [0xAA] }).statusByte = 0x00 ∧
    (stepped { running .encHdr 4 0x12 3 [] [.reset] with tx := [0xAA] }).tx = [0xAA] ∧
    (stepped { running .encHdr 4 0x12 3 [] [.reset] with tx := [0xAA] }).hdr.length = .unspec := by decide

theorem test_withFetchWord_runs :
    (stepped (State.reset.withFetchWord 17 0x10D03)).hdr.length = .val 0x03 := by decide

/-! ## The step that stops (R30, R120, R124, R234; vectors 6 and 7): "fault in a model" -/

theorem test_checkedStep_stops_at_reads :
    checkedStep (running .encHdr 0 0 3 [] [.host 0x00D00]) = .fault .readsUnspec ∧
    checkedStep (start [.host 0x00800]) = .fault .readsUnspec ∧
    checkedStep (start [.host 0x08000]) = .fault .readsUnspec := ⟨rfl, rfl, rfl⟩

theorem test_checkedStep_stops_at_encode_and_busy_write :
    checkedStep (start [.host 0x10002]) = .fault .encodesUnspecLength ∧
    checkedStep (running .encPay 3 0 9 [] [.txAccept]) = .fault .sendsUnspec ∧
    checkedStep (running .decHdr 1 0 0 [] [.host 0x10D05]) = .fault .writesWhileBusy := ⟨rfl, rfl, rfl⟩

theorem test_checkedStep_goes_on :
    checkedStep (running .encHdr 0 0 3 [] [.host 0x00100]) =
      .next (stepped (running .encHdr 0 0 3 [] [.host 0x00100])) := rfl

/-! ## Witnesses: for each obligation with hypotheses, values that meet all of them. The instructions of every clause
have one, and where a clause has a range, its boundary values. -/

theorem witness_DecodeOfEncode :
    Instr.wellFormed (.ctrlRsvd 0x04) = true ∧ Instr.wellFormed (.wrRsvd 0x7F 0xFF) = true ∧
    Instr.wellFormed (.rdRsvd 0x0E) = true ∧ Instr.wellFormed (.rdPbuf 127) = true := by decide

theorem witness_EveryWordDecodesToItsOneRow :
    ((false = false) ∨ (0x00 : Byte) ≠ 0x00) ∧ ((true = false) ∨ (0xFF : Byte) ≠ 0x00) := by decide

theorem witness_StepRunsDecodedHostWord :
    (start [.host 0x10003, .rxOffer]).agenda = .host 0x10003 :: [.rxOffer] ∧
    decodeTableWord 17 0x1FFFF = some (.wrPbuf 127 0xFF) := by decide

theorem witness_NoEventHoldsState : State.reset.agenda = [] := rfl

theorem witness_CkclrClears : State.reset.phase = .idle := rfl

theorem witness_CkbyteSubtracts :
    State.reset.phase = .idle ∧ State.reset.acc = .val 0x00 ∧
    ({ State.reset with acc := .unspec } : State).phase = .idle ∧
    ({ State.reset with acc := .unspec } : State).acc = .unspec := by decide

/-- The host accesses of P1, with the checksum fed last. -/
theorem witness_ByteStreamComputesChecksum :
    (start [.host 0x10001, .host 0x10312, .host 0x10334, .host 0x10356, .host 0x10364]).phase = .idle ∧
    (start [.host 0x10001, .host 0x10312, .host 0x10334, .host 0x10356, .host 0x10364]).agenda =
      .host (encode .ckclr) :: (([0x12, 0x34, 0x56] : List Byte).map (fun d => Event.host (encode (.ckbyte d)))
        ++ .host (encode (.ckbyte (ck8 [0x12, 0x34, 0x56]))) :: []) := by decide

theorem witness_ChecksumIgnoresOrder : ([0x12, 0x34] : List Byte).Perm [0x34, 0x12] := List.Perm.swap _ _ _

theorem witness_SingleBitFlipDetected : 0 < 8 ∧ 7 < 8 ∧ (0x37 : Byte) =
    ck8 [0xAA, 0x01, 0x00, 0x01, 0x00, 0x03, 0x00, 0x00, 0x1A] := by decide

theorem witness_EncodeStarts :
    (loaded []).phase = .idle ∧ (loaded []).hdr.length = .val 3 ∧ (3 : Byte).toNat ≤ Config.maxPayload ∧
    ({ loaded [] with hdr := exampleHeader 120 } : State).hdr.length = .val 120 ∧
    (120 : Byte).toNat ≤ Config.maxPayload ∧
    ({ loaded [] with hdr := exampleHeader 0 } : State).hdr.length = .val 0 ∧ (0 : Byte) = 0 := by decide

theorem witness_EncodeLengthFailure :
    ({ loaded [] with hdr := exampleHeader 121 } : State).phase = .idle ∧
    ({ loaded [] with hdr := exampleHeader 121 } : State).hdr.length = .val 121 ∧
    Config.maxPayload < (121 : Byte).toNat ∧
    ({ loaded [] with hdr := exampleHeader 255 } : State).hdr.length = .val 255 ∧
    Config.maxPayload < (255 : Byte).toNat := by decide

theorem witness_EncodeNoPayloadFailure :
    ({ loaded [] with hdr := exampleHeader 1 } : State).phase = .idle ∧
    ({ loaded [] with hdr := exampleHeader 1 } : State).hdr.length = .val 1 ∧
    0 < (1 : Byte).toNat ∧ (1 : Byte).toNat ≤ Config.maxPayload ∧
    ({ loaded [] with hdr := exampleHeader 120 } : State).hdr.length = .val 120 ∧
    0 < (120 : Byte).toNat ∧ (120 : Byte).toNat ≤ Config.maxPayload := by decide

theorem witness_EncodeOnUnspecLength :
    State.reset.phase = .idle ∧ State.reset.hdr.length = .unspec ∧ (Instr.encP = .enc ∨ Instr.encP = .encP) := by
  decide

/-- At the first header byte, and at the last one without and with a payload. -/
theorem witness_TxHeaderByte :
    (running .encHdr 0 0 3 [] [.txAccept]).agenda = .txAccept :: [] ∧
    (running .encHdr 0 0 3 [] [.txAccept]).phase = .encHdr ∧
    (running .encHdr 0 0 3 [] [.txAccept]).idx.toNat ≤ 5 ∧ (running .encHdr 0 0 3 [] [.txAccept]).acc = .val 0 ∧
    (running .encHdr 0 0 3 [] [.txAccept]).hdr.get (hdrFieldOf 0) = .val 0xAA ∧
    (running .encHdr 0 0 3 [] [.txAccept]).hdr.length = .val 3 ∧
    (running .encHdr 5 0 0 [] [.txAccept]).idx.toNat ≤ 5 ∧
    (running .encHdr 5 0 0 [] [.txAccept]).hdr.get (hdrFieldOf 5) = .val 0 ∧
    (running .encHdr 5 0 3 [] [.txAccept]).hdr.get (hdrFieldOf 5) = .val 3 := by decide

/-- At the last payload byte and before it. -/
theorem witness_TxPayloadByte :
    (running .encPay 2 0x51 3 [] [.txAccept]).agenda = .txAccept :: [] ∧
    (running .encPay 2 0x51 3 [] [.txAccept]).phase = .encPay ∧
    (running .encPay 2 0x51 3 [] [.txAccept]).acc = .val 0x51 ∧
    (running .encPay 2 0x51 3 [] [.txAccept]).hdr.length = .val 3 ∧
    (running .encPay 2 0x51 3 [] [.txAccept]).idx.toNat < (3 : Byte).toNat ∧
    (running .encPay 2 0x51 3 [] [.txAccept]).pbuf.read 2 = .val 0x1A ∧
    (running .encPay 0 0x51 3 [] [.txAccept]).idx.toNat < (3 : Byte).toNat ∧
    (running .encPay 0 0x51 3 [] [.txAccept]).pbuf.read 0 = .val 0x00 := by decide

theorem witness_TxChecksumByte :
    (running .encCk 0 0x37 3 [] [.txAccept]).agenda = .txAccept :: [] ∧
    (running .encCk 0 0x37 3 [] [.txAccept]).phase = .encCk ∧
    (running .encCk 0 0x37 3 [] [.txAccept]).acc = .val 0x37 := by decide

/-- An unwritten payload byte, before the last one and at it. -/
theorem witness_TxUnspecByte :
    (running .encPay 3 0 9 [] [.txAccept]).agenda = .txAccept :: [] ∧
    (running .encPay 3 0 9 [] [.txAccept]).txReg = some .unspec ∧
    (running .encPay 3 0 9 [] [.txAccept]).hdr.length = .val 9 ∧
    (running .encPay 3 0 9 [] [.txAccept]).idx.toNat < (9 : Byte).toNat ∧
    (running .encPay 8 0 9 [] [.txAccept]).txReg = some .unspec ∧
    (running .encPay 8 0 9 [] [.txAccept]).idx.toNat < (9 : Byte).toNat := by decide

/-- An unwritten device, an unwritten length, and defined bytes whose `ACC` is `UNSPEC`: header byte 5 with and without a
payload, and the checksum. -/
theorem witness_TxUnspecByte_header :
    ({ running .encHdr 1 0 3 [] [.txAccept] with hdr := Header.unspec } : State).txReg = some .unspec ∧
    ({ running .encHdr 1 0 3 [] [.txAccept] with hdr := Header.unspec } : State).idx.toNat < 5 ∧
    ({ running .encHdr 5 0 3 [] [.txAccept] with hdr := Header.unspec } : State).txReg = some .unspec ∧
    5 ≤ ({ running .encHdr 5 0 3 [] [.txAccept] with hdr := Header.unspec } : State).idx.toNat ∧
    ({ running .encHdr 5 0 3 [] [.txAccept] with acc := .unspec } : State).txReg = some (.val 3) ∧
    ({ running .encHdr 5 0 0 [] [.txAccept] with acc := .unspec } : State).txReg = some (.val 0) ∧
    ({ running .encHdr 5 0 0 [] [.txAccept] with acc := .unspec } : State).acc = .unspec ∧
    ({ running .encCk 0 0 3 [] [.txAccept] with acc := .unspec } : State).txReg = some .unspec := by decide

theorem witness_TxNotEnabledOutsideEncode :
    (running .decHdr 0 0 3 [] [.txAccept]).agenda = .txAccept :: [] ∧
    (running .decHdr 0 0 3 [] [.txAccept]).phase ≠ .encHdr ∧ (running .decHdr 0 0 3 [] [.txAccept]).phase ≠ .encPay ∧
    (running .decHdr 0 0 3 [] [.txAccept]).phase ≠ .encCk := by decide

/-- The loaded example machine is `Loaded`. -/
theorem loaded_is_Loaded (agenda : List Event) : Loaded (loaded agenda) 0x01 0x00 0x01 0x00 [0x00, 0x00, 0x1A] where
  idle := rfl
  short := by decide
  device := rfl
  address := rfl
  command := rfl
  item := rfl
  length := rfl
  payload := by
    intro k h
    match k, h with
    | 0, _ => rfl
    | 1, _ => rfl
    | 2, _ => rfl

/-- A machine loaded with an empty payload is `Loaded`. -/
theorem empty_is_Loaded (agenda : List Event) :
    Loaded { start agenda with hdr := exampleHeader 0 } 0x01 0x00 0x01 0x00 [] where
  idle := rfl
  short := by decide
  device := rfl
  address := rfl
  command := rfl
  item := rfl
  length := rfl
  payload := fun _ h => absurd h (by simp)

/-- A machine loaded with an offset and no further payload is `Loaded`. -/
theorem offsetOnly_is_Loaded (agenda : List Event) :
    Loaded { loaded agenda with hdr := exampleHeader 2 } 0x01 0x00 0x01 0x00 [0x00, 0x00] where
  idle := rfl
  short := by decide
  device := rfl
  address := rfl
  command := rfl
  item := rfl
  length := rfl
  payload := by
    intro k h
    match k, h with
    | 0, _ => rfl
    | 1, _ => rfl

/-- The longest payload. -/
def longestBody : List Byte := List.replicate 120 0x5A

/-- An idle machine loaded with the longest payload. -/
def longest (agenda : List Event) : State :=
  { start agenda with hdr := exampleHeader 120, pbuf := (List.range 120).map (fun k => (k, 0x5A)) }

theorem longest_is_Loaded (agenda : List Event) :
    Loaded (longest agenda) 0x01 0x00 0x01 0x00 longestBody where
  idle := rfl
  short := by rw [longestBody, List.length_replicate]; decide
  device := rfl
  address := rfl
  command := rfl
  item := rfl
  length := rfl
  payload := by
    have reads : ∀ k < 120, Memory.read ((List.range 120).map (fun k => (k, 0x5A))) k = .val 0x5A := by decide
    intro k h
    rw [longestBody, List.length_replicate] at h
    exact (reads k h).trans (by simp only [longestBody, List.getElem_replicate])

theorem witness_EncodeSendsFrame :
    Loaded (loaded (.host 0x10012 :: (List.replicate 10 .txAccept ++ []))) 0x01 0x00 0x01 0x00 [0x00, 0x00, 0x1A] ∧
    StartsEncode 0x10012 [0x00, 0x00, 0x1A] ∧
    (loaded (.host 0x10012 :: (List.replicate 10 .txAccept ++ []))).agenda =
      .host 0x10012 :: (List.replicate (6 + ([0x00, 0x00, 0x1A] : List Byte).length + 1) .txAccept ++ []) :=
  ⟨loaded_is_Loaded _, .inl rfl, rfl⟩

/-- The shortest frame, started by `ENC`. -/
theorem witness_EncodeSendsFrame_empty :
    Loaded { start (.host 0x10002 :: (List.replicate 7 .txAccept ++ [])) with hdr := exampleHeader 0 }
      0x01 0x00 0x01 0x00 [] ∧ StartsEncode 0x10002 [] :=
  ⟨empty_is_Loaded _, .inr ⟨rfl, rfl⟩⟩

theorem witness_EncodeBusyUntilLastByte :
    Loaded (loaded (.host 0x10012 :: (List.replicate 9 .txAccept ++ []))) 0x01 0x00 0x01 0x00 [0x00, 0x00, 0x1A] ∧
    StartsEncode 0x10012 [0x00, 0x00, 0x1A] ∧
    (loaded (.host 0x10012 :: (List.replicate 9 .txAccept ++ []))).agenda =
      .host 0x10012 :: (List.replicate 9 .txAccept ++ []) ∧
    9 < 6 + ([0x00, 0x00, 0x1A] : List Byte).length + 1 ∧ 0 < 6 + ([0x00, 0x00, 0x1A] : List Byte).length + 1 :=
  ⟨loaded_is_Loaded _, .inl rfl, rfl, by decide, by decide⟩

theorem witness_DecodeStarts : State.reset.phase = .idle := rfl

/-- Before the first header byte, and before the fifth. -/
theorem witness_RxHeaderByte :
    (running .decHdr 0 0 0 [.byte 0xAA] [.rxOffer]).agenda = .rxOffer :: [] ∧
    (running .decHdr 0 0 0 [.byte 0xAA] [.rxOffer]).rx = .byte 0xAA :: [] ∧
    (running .decHdr 0 0 0 [.byte 0xAA] [.rxOffer]).phase = .decHdr ∧
    (running .decHdr 0 0 0 [.byte 0xAA] [.rxOffer]).idx.toNat < 5 ∧
    (running .decHdr 0 0 0 [.byte 0xAA] [.rxOffer]).acc = .val 0 ∧
    (running .decHdr 4 0 0 [.byte 0xAA] [.rxOffer]).idx.toNat < 5 := by decide

/-- For each branch of the check: a wrong marker; 121; 120 and 2; 1 and 0. -/
theorem witness_HeaderCheckAndBodySelection :
    (running .decHdr 5 0 0 [.byte 120] [.rxOffer]).agenda = .rxOffer :: [] ∧
    (running .decHdr 5 0 0 [.byte 120] [.rxOffer]).rx = .byte 120 :: [] ∧
    (running .decHdr 5 0 0 [.byte 120] [.rxOffer]).phase = .decHdr ∧
    (running .decHdr 5 0 0 [.byte 120] [.rxOffer]).idx = 5 ∧
    (running .decHdr 5 0 0 [.byte 120] [.rxOffer]).acc = .val 0 ∧
    (running .decHdr 5 0 0 [.byte 120] [.rxOffer]).hdr.start = .val 0xAA ∧
    ({ running .decHdr 5 0 0 [.byte 121] [.rxOffer] with hdr := exampleHeader 0 } : State).hdr.start = .val 0x00 ∧
    (0x00 : Byte) ≠ Config.startMarker ∧ (0xAA : Byte) = Config.startMarker ∧
    (running .decHdr 5 0 0 [.byte 121] [.rxOffer]).rx = .byte 121 :: [] ∧
    (running .decHdr 5 0 0 [.byte 2] [.rxOffer]).rx = .byte 2 :: [] ∧
    (running .decHdr 5 0 0 [.byte 1] [.rxOffer]).rx = .byte 1 :: [] ∧ Config.maxPayload < (121 : Byte).toNat ∧
    ¬ Config.maxPayload < (120 : Byte).toNat ∧ 2 ≤ (2 : Byte).toNat ∧ ¬ 2 ≤ (1 : Byte).toNat := by decide

theorem witness_RxOffsetByte :
    (running .decOfs 0 0 2 [.byte 0x34] [.rxOffer]).agenda = .rxOffer :: [] ∧
    (running .decOfs 0 0 2 [.byte 0x34] [.rxOffer]).rx = .byte 0x34 :: [] ∧
    (running .decOfs 0 0 2 [.byte 0x34] [.rxOffer]).phase = .decOfs ∧
    (running .decOfs 0 0 2 [.byte 0x34] [.rxOffer]).acc = .val 0 ∧
    (running .decOfs 0 0 2 [.byte 0x34] [.rxOffer]).hdr.length = .val 2 ∧
    (running .decOfs 0 0 2 [.byte 0x34] [.rxOffer]).idx = 0 ∧
    (running .decOfs 1 0 2 [.byte 0x12] [.rxOffer]).idx = 1 ∧
    (running .decOfs 1 0 3 [.byte 0x12] [.rxOffer]).hdr.length = .val 3 := by decide

/-- The last payload byte of `L = 3` and the first of `L = 4`. -/
theorem witness_RxPayloadByte :
    (running .decPay 0 0 3 [.byte 0x7F] [.rxOffer]).agenda = .rxOffer :: [] ∧
    (running .decPay 0 0 3 [.byte 0x7F] [.rxOffer]).rx = .byte 0x7F :: [] ∧
    (running .decPay 0 0 3 [.byte 0x7F] [.rxOffer]).phase = .decPay ∧
    (running .decPay 0 0 3 [.byte 0x7F] [.rxOffer]).acc = .val 0 ∧
    (running .decPay 0 0 3 [.byte 0x7F] [.rxOffer]).hdr.length = .val 3 ∧
    (running .decPay 0 0 3 [.byte 0x7F] [.rxOffer]).idx.toNat + 2 < (3 : Byte).toNat ∧
    (running .decPay 0 0 4 [.byte 0x7F] [.rxOffer]).idx.toNat + 2 < (4 : Byte).toNat := by decide

theorem witness_RxChecksumByte :
    (running .decCk 0 0x0B 4 [.byte 0x0B] [.rxOffer]).agenda = .rxOffer :: [] ∧
    (running .decCk 0 0x0B 4 [.byte 0x0B] [.rxOffer]).rx = .byte 0x0B :: [] ∧
    (running .decCk 0 0x0B 4 [.byte 0x0C] [.rxOffer]).rx = .byte 0x0C :: [] ∧
    (running .decCk 0 0x0B 4 [.byte 0x0B] [.rxOffer]).phase = .decCk ∧
    (running .decCk 0 0x0B 4 [.byte 0x0B] [.rxOffer]).acc = .val 0x0B ∧
    (running .decCk 0 0x0B 4 [.byte 0x0B] [.rxOffer]).hdr.length = .val 4 ∧
    (running .decCk 0 0x0B 1 [.byte 0x0B] [.rxOffer]).hdr.length = .val 1 := by decide

theorem witness_ShortReadFailsDecode :
    (running .decOfs 0 0 4 [.eos] [.rxOffer]).agenda = .rxOffer :: [] ∧
    (running .decOfs 0 0 4 [.eos] [.rxOffer]).rx = .eos :: [] ∧
    (running .decOfs 0 0 4 [.eos] [.rxOffer]).rxReady = true ∧
    (running .idle 0 0 4 [.eos] [.rxOffer]).rxReady = false := by decide

theorem witness_RxByteWaitsOutsideDecode :
    (running .encCk 0 0 4 [.byte 1] [.rxOffer]).agenda = .rxOffer :: [] ∧
    (running .encCk 0 0 4 [.byte 1] [.rxOffer]).rx = .byte 1 :: [] ∧
    (running .encCk 0 0 4 [.byte 1] [.rxOffer]).phase = .encCk := by decide

/-- An idle machine that is to run `DEC` on these bytes, offered `n` times. -/
def decoding (bytes : List Byte) (n : Nat) : State :=
  { start (.host (encode .dec) :: (List.replicate n .rxOffer ++ [])) with rx := delivered bytes ++ [] }

/-- Vector 4.1, and the shortest and the longest frame. -/
theorem witness_DecodeAcceptsFrame :
    (decoding (frame 1 0 0 0 [0x00, 0x00, 0x34, 0x12]) 11).phase = .idle ∧
    ([0x00, 0x00, 0x34, 0x12] : List Byte).length ≠ 1 ∧
    ([0x00, 0x00, 0x34, 0x12] : List Byte).length ≤ Config.maxPayload ∧
    (decoding (frame 1 0 0 0 [0x00, 0x00, 0x34, 0x12]) 11).rx =
      delivered (frame 1 0 0 0 [0x00, 0x00, 0x34, 0x12]) ++ [] ∧
    (decoding (frame 1 0 0 0 [0x00, 0x00, 0x34, 0x12]) 11).agenda =
      .host (encode .dec) :: (List.replicate (6 + ([0x00, 0x00, 0x34, 0x12] : List Byte).length + 1) .rxOffer ++ []) ∧
    frame 1 0 0 0 [0x00, 0x00, 0x34, 0x12] = [0xAA, 1, 0, 0, 0, 4, 0, 0, 0x34, 0x12, 0x0B] ∧
    ([] : List Byte).length ≠ 1 := by decide

/-- The longest frame. -/
theorem witness_DecodeAcceptsFrame_longest :
    (List.replicate 120 (0xFF : Byte)).length ≠ 1 ∧ (List.replicate 120 (0xFF : Byte)).length ≤ Config.maxPayload := by
  rw [List.length_replicate]
  decide

/-- The vector "checksum + 1" of section 4.2. -/
theorem witness_DecodeRejectsWrongChecksum :
    (decoding (covered 1 0 0 0 [0x00, 0x00, 0x34, 0x12] ++ [0x0C]) 11).phase = .idle ∧
    ([0x00, 0x00, 0x34, 0x12] : List Byte).length ≠ 1 ∧
    ([0x00, 0x00, 0x34, 0x12] : List Byte).length ≤ Config.maxPayload ∧
    0x0C ≠ ck8 (covered 1 0 0 0 [0x00, 0x00, 0x34, 0x12]) ∧
    (decoding (covered 1 0 0 0 [0x00, 0x00, 0x34, 0x12] ++ [0x0C]) 11).rx =
      delivered (covered 1 0 0 0 [0x00, 0x00, 0x34, 0x12] ++ [0x0C]) ++ [] ∧
    (decoding (covered 1 0 0 0 [0x00, 0x00, 0x34, 0x12] ++ [0x0C]) 11).agenda =
      .host (encode .dec) ::
        (List.replicate (6 + ([0x00, 0x00, 0x34, 0x12] : List Byte).length + 1) .rxOffer ++ []) := by decide

/-- The two length-1 vectors of section 4.2. -/
theorem witness_DecodeLengthOne :
    (decoding [0xAA, 1, 0, 1, 0, 1, 0x53] 7).phase = .idle ∧
    (decoding [0xAA, 1, 0, 1, 0, 1, 0x53] 7).rx = delivered [Config.startMarker, 1, 0, 1, 0, 1, 0x53] ++ [] ∧
    (decoding [0xAA, 1, 0, 1, 0, 1, 0x53] 7).agenda = .host (encode .dec) :: (List.replicate 7 .rxOffer ++ []) ∧
    0x53 = ck8 [Config.startMarker, 1, 0, 1, 0, 1] ∧ 0x07 ≠ ck8 [Config.startMarker, 1, 0, 1, 0, 1] := by decide

/-- The vectors "marker and length both bad" and "length 121" of section 4.2. -/
theorem witness_BadHeaderConsumesSix :
    (decoding [0x55, 1, 0, 0, 0, 0xC8] 6).phase = .idle ∧
    ((0x55 : Byte) ≠ Config.startMarker ∨ Config.maxPayload < (0xC8 : Byte).toNat) ∧
    ((0xAA : Byte) ≠ Config.startMarker ∨ Config.maxPayload < (0x79 : Byte).toNat) ∧
    (decoding [0x55, 1, 0, 0, 0, 0xC8] 6).rx = delivered [0x55, 1, 0, 0, 0, 0xC8] ++ [] ∧
    (decoding [0x55, 1, 0, 0, 0, 0xC8] 6).agenda = .host (encode .dec) :: (List.replicate 6 .rxOffer ++ []) := by
  decide

theorem witness_FailedDecodeForgetsOutputs :
    (running .decPay 4 0 9 [.eos] [.rxOffer]).agenda = .rxOffer :: [] ∧
    (running .decPay 4 0 9 [.eos] [.rxOffer]).rxReady = true ∧
    (running .decPay 4 0 9 [.eos] [.rxOffer]).fail = false ∧
    step (running .decPay 4 0 9 [.eos] [.rxOffer]) = .next (stepped (running .decPay 4 0 9 [.eos] [.rxOffer])) ∧
    (stepped (running .decPay 4 0 9 [.eos] [.rxOffer])).fail = true :=
  ⟨rfl, rfl, rfl, rfl, rfl⟩

theorem witness_EncodeDecodeRoundTrip :
    Loaded (loaded (.host 0x10012 :: (List.replicate 10 .txAccept ++ []))) 0x01 0x00 0x01 0x00 [0x00, 0x00, 0x1A] ∧
    StartsEncode 0x10012 [0x00, 0x00, 0x1A] ∧ ([0x00, 0x00, 0x1A] : List Byte).length ≠ 1 ∧
    (decoding (frame 1 0 1 0 [0x00, 0x00, 0x1A]) 10).phase = .idle ∧
    (decoding (frame 1 0 1 0 [0x00, 0x00, 0x1A]) 10).rx = delivered (frame 1 0 1 0 [0x00, 0x00, 0x1A]) ++ [] ∧
    (decoding (frame 1 0 1 0 [0x00, 0x00, 0x1A]) 10).agenda =
      .host (encode .dec) :: (List.replicate (frame 1 0 1 0 [0x00, 0x00, 0x1A]).length .rxOffer ++ []) :=
  ⟨loaded_is_Loaded _, .inl rfl, by decide, rfl, rfl, rfl⟩

/-- The frames without a payload and with an offset only. -/
theorem witness_EncodeDecodeRoundTrip_short :
    Loaded { start (.host 0x10002 :: (List.replicate 7 .txAccept ++ [])) with hdr := exampleHeader 0 }
      0x01 0x00 0x01 0x00 [] ∧ StartsEncode 0x10002 [] ∧ ([] : List Byte).length ≠ 1 ∧
    (decoding (frame 1 0 1 0 []) 7).rx = delivered (frame 1 0 1 0 []) ++ [] ∧
    Loaded { loaded (.host 0x10012 :: (List.replicate 9 .txAccept ++ [])) with hdr := exampleHeader 2 }
      0x01 0x00 0x01 0x00 [0x00, 0x00] ∧ StartsEncode 0x10012 [0x00, 0x00] ∧ ([0x00, 0x00] : List Byte).length ≠ 1 ∧
    (decoding (frame 1 0 1 0 [0x00, 0x00]) 9).rx = delivered (frame 1 0 1 0 [0x00, 0x00]) ++ [] :=
  ⟨empty_is_Loaded _, .inr ⟨rfl, rfl⟩, by decide, rfl, offsetOnly_is_Loaded _, .inl rfl, by decide, rfl⟩

/-- The longest frame: 120 payload bytes. -/
theorem witness_EncodeDecodeRoundTrip_longest :
    Loaded (longest (.host 0x10012 :: (List.replicate 127 .txAccept ++ []))) 0x01 0x00 0x01 0x00 longestBody ∧
    StartsEncode 0x10012 longestBody ∧ longestBody.length = 120 :=
  ⟨longest_is_Loaded _, .inl rfl, List.length_replicate⟩

theorem witness_ReadsChangeNoState : wordIsWrite (encode .rdStatus) = false ∧ wordIsWrite (encode (.rdPbuf 127)) = false := by
  decide

/-- A state in which every register holds a byte. -/
theorem witness_ReadsReturnRegisters :
    (running .idle 0 0x37 3 [] []).phase = .idle ∧ (running .idle 0 0x37 3 [] []).acc = .val 0x37 ∧
    ({ running .idle 0 0x37 3 [] [] with rxck := .val 0x0B } : State).rxck = .val 0x0B ∧
    ({ running .idle 0 0x37 3 [] [] with ofsLo := .val 0x34 } : State).ofsLo = .val 0x34 ∧
    ({ running .idle 0 0x37 3 [] [] with ofsHi := .val 0x12 } : State).ofsHi = .val 0x12 ∧
    (∀ f, ∃ b, (running .idle 0 0x37 3 [] []).hdr.get f = .val b) ∧
    (running .idle 0 0x37 3 [] []).pbuf.read (2 : BitVec 7).toNat = .val 0x1A :=
  ⟨rfl, rfl, rfl, rfl, rfl, fun f => by cases f <;> exact ⟨_, rfl⟩, rfl⟩

theorem witness_StatusValuesAreLegal :
    inv State.reset = true ∧ inv { State.reset with fail := true, err := 6 } = true ∧
    inv (running .encPay 2 0x51 3 [] []) = true := by decide

theorem witness_CleanReadReturnsRegister :
    (start [.host 0x00200]).agenda = .host 0x00200 :: [] ∧ programFault (start [.host 0x00200]) = false ∧
    readRegister (decode 0x00200) (start [.host 0x00200]) = some (.val 0x00) := by decide

theorem witness_HeaderWritesStore : State.reset.phase = .idle := rfl

theorem witness_PayloadWriteStores : State.reset.phase = .idle := rfl

theorem witness_ReservedCommandFails :
    State.reset.phase = .idle ∧ ((0x00 : Byte) ≠ 0x01 ∧ (0x00 : Byte) ≠ 0x02 ∧ (0x00 : Byte) ≠ 0x12 ∧ (0x00 : Byte) ≠ 0x03) ∧
    ((0xFF : Byte) ≠ 0x01 ∧ (0xFF : Byte) ≠ 0x02 ∧ (0xFF : Byte) ≠ 0x12 ∧ (0xFF : Byte) ≠ 0x03) := by decide

theorem witness_ConstantReadsReturnZero :
    (0x0E ≤ (0x0E : Byte).toNat ∧ (0x0E : Byte).toNat ≤ 0x7F) ∧ (0x0E ≤ (0x7F : Byte).toNat ∧ (0x7F : Byte).toNat ≤ 0x7F) ∧
    ((0x05 : Byte) = 0x00 ∨ (0x05 : Byte) = 0x03 ∨ (0x05 : Byte) = 0x05) := by decide

theorem witness_IgnoredWritesDoNothing :
    (0x04 ≤ (0x04 : Byte).toNat ∧ (0x04 : Byte).toNat ≤ 0x07) ∧ (0x04 ≤ (0x07 : Byte).toNat ∧ (0x07 : Byte).toNat ≤ 0x07) ∧
    (0x0E ≤ (0x0E : Byte).toNat ∧ (0x0E : Byte).toNat ≤ 0x7F) ∧ (0x0E ≤ (0x7F : Byte).toNat ∧ (0x7F : Byte).toNat ≤ 0x7F) := by
  decide

theorem witness_BusyWriteLeavesUnspec :
    (running .encPay 1 0 3 [] []).phase ≠ .idle ∧ isGuardedWrite (.wrPbuf 0 0) = true ∧ isGuardedWrite .dec = true ∧
    isGuardedWrite (.ckbyte 1) = true ∧ isGuardedWrite (.wrHdrLength 1) = true := by decide

theorem witness_OnlyCommandsStreamStepsAndResetChangeStatus :
    (wordAddress (encode (.ckbyte 1)) ≠ 0x00 ∨ wordIsWrite (encode (.ckbyte 1)) = false) ∧
    (wordAddress (encode .rdCtrl) ≠ 0x00 ∨ wordIsWrite (encode .rdCtrl) = false) ∧
    exec (.ckbyte 1) State.reset = .next (after (.ckbyte 1) State.reset) :=
  ⟨by decide, by decide, rfl⟩

theorem witness_CommandEndsInOneOutcome :
    State.reset.phase = .idle ∧ exec .dec State.reset = .next (after .dec State.reset) ∧
    exec (.ctrlRsvd 0x00) State.reset = .next (after (.ctrlRsvd 0x00) State.reset) := ⟨rfl, rfl, rfl⟩

theorem witness_HostAccessTouchesNoStream :
    exec .encP (loaded [.txAccept]) = .next (after .encP (loaded [.txAccept])) := rfl

theorem witness_ResetEventRestores : (start [.reset]).agenda = .reset :: [] := rfl

/-- A starved encode and a starved decode; the host reads the status meanwhile. -/
theorem witness_StarvedCommandHangs :
    Event.reset ∉ (running .encHdr 2 0 3 [] [.host 0x00100]).agenda ∧
    step (running .encHdr 2 0 3 [] [.host 0x00100]) = .next (stepped (running .encHdr 2 0 3 [] [.host 0x00100])) ∧
    (running .encHdr 2 0 3 [] [.host 0x00100]).txReg ≠ none ∧
    Event.txAccept ∉ (running .encHdr 2 0 3 [] [.host 0x00100]).agenda ∧
    Event.reset ∉ (running .decHdr 2 0 3 [] [.rxOffer]).agenda ∧
    (running .decHdr 2 0 3 [] [.rxOffer]).rxReady = true ∧ (running .decHdr 2 0 3 [] [.rxOffer]).rx = [] :=
  ⟨by decide, rfl, by decide, by decide, by decide, rfl, rfl⟩

/-- The run of `witness_StarvedCommandHangs`, of one step. -/
theorem witness_StarvedCommandHangs_run :
    Host.Core.run Sys2Proof.core 1 (running .encHdr 2 0 3 [] [.host 0x00100]) =
      .next (stepped (running .encHdr 2 0 3 [] [.host 0x00100])) := rfl

theorem witness_CleanRunStaysDefined :
    definedRunning (running .encPay 2 0x51 3 [] [.txAccept]) = true ∧
    cleanRun 1 (running .encPay 2 0x51 3 [] [.txAccept]) = true ∧
    Host.Core.run Sys2Proof.core 1 (running .encPay 2 0x51 3 [] [.txAccept]) =
      .next (stepped (running .encPay 2 0x51 3 [] [.txAccept])) :=
  ⟨by decide, by decide, rfl⟩

/-- A checksum comparison, and a read of a defined register. -/
theorem witness_CleanStepIgnoresFreeValues :
    definedRunning (running .decCk 0 0x0B 4 [.byte 0x0B] [.rxOffer]) = true ∧
    programFault (running .decCk 0 0x0B 4 [.byte 0x0B] [.rxOffer]) = false ∧
    step (running .decCk 0 0x0B 4 [.byte 0x0B] [.rxOffer]) =
      .next (stepped (running .decCk 0 0x0B 4 [.byte 0x0B] [.rxOffer])) ∧
    definedRunning (loaded [.host 0x00D00]) = true ∧ programFault (loaded [.host 0x00D00]) = false :=
  ⟨by decide, by decide, rfl, by decide, by decide⟩

/-- An `ENC` that fails with `NOPAYLOAD`: the case in which `HDR[0]` may differ. -/
theorem witness_CleanStepIgnoresFreeValues_failing_encode :
    definedRunning { start [.host 0x10002] with hdr := exampleHeader 5 } = true ∧
    programFault { start [.host 0x10002] with hdr := exampleHeader 5 } = false ∧
    step { start [.host 0x10002] with hdr := exampleHeader 5 } =
      .next (stepped { start [.host 0x10002] with hdr := exampleHeader 5 }) ∧
    (stepped { start [.host 0x10002] with hdr := exampleHeader 5 }).fail = true ∧
    ({ start [.host 0x10002] with hdr := exampleHeader 5 } : State).phase = .idle ∧ decode 0x10002 = .enc :=
  ⟨by decide, by decide, rfl, by decide, rfl, by decide⟩

theorem witness_StepKeepsInvariant :
    inv (running .encPay 2 0x51 3 [] [.txAccept]) = true ∧
    step (running .encPay 2 0x51 3 [] [.txAccept]) = .next (stepped (running .encPay 2 0x51 3 [] [.txAccept])) :=
  ⟨by decide, rfl⟩

end Sys2Proof.Tests
end

section
/-! PROOF. What the host reads in `STATUS`: the byte's layout, bit by bit (R29, R171). -/

namespace Sys2Proof.Machine

/-! ## The layout of the status byte -/

/-- `BUSY` is not separate storage: it is the phase (R29). -/
theorem State.busy_iff (s : State) : s.busy = true ↔ s.phase ≠ .idle := by
  simp [State.busy]

/-- The bits from bit 0 up: `BUSY`, `OK`, `FAIL`, a reserved 0, then `ERR` and 0 beyond it (R171). -/
theorem State.statusByte_getLsbD (s : State) (i : Nat) :
    s.statusByte.getLsbD i =
      if i = 0 then s.busy else if i = 1 then s.ok else if i = 2 then s.fail
      else decide (4 ≤ i) && s.err.getLsbD (i - 4) := by
  unfold State.statusByte
  simp only [BitVec.getLsbD_append]
  match i with
  | 0 | 1 | 2 | 3 => simp
  | j + 4 =>
    by_cases hj : j < 3
    · simp [hj]
    · simp [hj, BitVec.getLsbD_of_ge s.err j (by omega)]

theorem State.statusByte_busy (s : State) : s.statusByte.getLsbD 0 = s.busy := by
  rw [State.statusByte_getLsbD, if_pos rfl]

theorem State.statusByte_ok (s : State) : s.statusByte.getLsbD 1 = s.ok := by
  rw [State.statusByte_getLsbD]; simp

theorem State.statusByte_fail (s : State) : s.statusByte.getLsbD 2 = s.fail := by
  rw [State.statusByte_getLsbD]; simp

theorem State.statusByte_bit3 (s : State) : s.statusByte.getLsbD 3 = false := by
  rw [State.statusByte_getLsbD]; simp

/-- Bit 7 lies beyond the three bits of `ERR`. -/
theorem State.statusByte_bit7 (s : State) : s.statusByte.getLsbD 7 = false := by
  rw [State.statusByte_getLsbD]; simp

theorem State.statusByte_err (s : State) : s.statusByte.extractLsb' 4 3 = s.err := by
  apply BitVec.eq_of_getLsbD_eq
  intro i hi
  rw [BitVec.getLsbD_extractLsb', State.statusByte_getLsbD, Nat.add_comm]
  simp [hi]

/-! ## The read -/

/-- `RD STATUS` returns the status byte, busy or not (R171). -/
theorem exec_rdStatus (s : State) : exec .rdStatus s = .next (s.returnByte s.statusByte) := rfl

/-- Settles O43: the byte returned is the status byte, whose bits the layout lemmas give. -/
theorem statusReadReturnsFlags : Obligations.StatusReadReturnsFlags := by
  intro s
  have bit_busy : s.statusByte.getLsbD 0 = true ↔ s.phase ≠ .idle := by
    rw [s.statusByte_busy, s.busy_iff]
  exact ⟨s.statusByte, exec_rdStatus s, bit_busy, s.statusByte_ok, s.statusByte_fail,
    s.statusByte_bit3, s.statusByte_err, s.statusByte_bit7⟩

end Sys2Proof.Machine
end

section
/-! PROOF. Every host word has exactly one row of the opcode table: the rows exclude one another, the decoded
instruction's row matches the word, and only the rows of `CTRL` writes look at `D` (spec/30_encoding.md R72 to R75). -/

namespace Sys2Proof.Laws.OneRow

/-! ## What the decoder answers: a well-formed instruction that encodes as the decoded word, a read's `D` put to 0 -/

/-- The instruction is one the host can send, and `w` is its word. -/
def IsSentAs (i : Instr) (w : HostWord) : Prop := i.wellFormed = true ∧ encode i = w

theorem decodeRead_isSentAs (a : Byte) : IsSentAs (decodeRead a) (hostWord false a 0) := by
  unfold IsSentAs
  revert a
  decide

theorem decodeCommand_isSentAs (d : Byte) : IsSentAs (decodeCommand d) (hostWord true 0x00 d) := by
  unfold IsSentAs
  revert d
  decide

theorem decodeWrite_pbuf (i : BitVec 7) (d : Byte) : decodeWrite (1#1 ++ i) d = .wrPbuf i d := by
  obtain ⟨hbit, hidx, hge⟩ := pbuf_address_bits i
  unfold decodeWrite
  split
  case h_14 => simp [hbit, hidx]
  all_goals omega

theorem decodeWrite_rsvd {a : Byte} (d : Byte) (h : isReservedLocation a = true) :
    decodeWrite a d = .wrRsvd a d := by
  have hbit : ¬ a.getLsbD 7 = true := by revert a; decide
  unfold decodeWrite
  split
  case h_14 => exact if_neg hbit
  all_goals simp_all [isReservedLocation]

/-- The addresses of the registers, `CTRL` apart (R51). -/
def namedAddresses : List Byte :=
  [0x01, 0x02, 0x03, 0x04, 0x06, 0x07, 0x08, 0x09, 0x0A, 0x0B, 0x0C, 0x0D]

theorem decodeWrite_named_isSentAs {a : Byte} (d : Byte) (h : a ∈ namedAddresses) :
    IsSentAs (decodeWrite a d) (hostWord true a d) := by
  simp only [namedAddresses, List.mem_cons, List.not_mem_nil, or_false] at h
  obtain rfl | rfl | rfl | rfl | rfl | rfl | rfl | rfl | rfl | rfl | rfl | rfl := h <;> exact ⟨rfl, rfl⟩

/-- The map R51, R52: `CTRL`, the other registers, the payload buffer's window and the reserved locations. -/
theorem address_cases (a : Byte) :
    a = 0x00 ∨ a ∈ namedAddresses ∨ (∃ i : BitVec 7, a = 1#1 ++ i) ∨ isReservedLocation a = true := by
  obtain h | h | ⟨h, -⟩ := reserved_location_cases a
  · have named : a = 0x00 ∨ a ∈ namedAddresses := by revert a; decide
    exact named.imp_right .inl
  · exact .inr (.inr (.inl ⟨_, (pbuf_address_of a h).symm⟩))
  · exact .inr (.inr (.inr h))

theorem decodeWrite_isSentAs (a d : Byte) : IsSentAs (decodeWrite a d) (hostWord true a d) := by
  obtain rfl | h | ⟨i, rfl⟩ | h := address_cases a
  · exact decodeCommand_isSentAs d
  · exact decodeWrite_named_isSentAs d h
  · rw [decodeWrite_pbuf]
    exact ⟨rfl, rfl⟩
  · rw [decodeWrite_rsvd d h]
    exact ⟨h, rfl⟩

theorem decode_wellFormed (w : HostWord) : (decode w).wellFormed = true := by
  unfold decode
  split
  · exact (decodeWrite_isSentAs _ _).1
  · exact (decodeRead_isSentAs _).1

/-! ## Some row matches -/

/-- Each instruction's word lies in a row of its mnemonic (`Laws.TableRow`, one law per instruction). -/
theorem tableRow_statement : ∀ i : Instr, TableRow.Statement i
  | .ckclr => TableRow.ckclr
  | .enc => TableRow.enc
  | .encP => TableRow.encP
  | .dec => TableRow.dec
  | .ctrlRsvd d => TableRow.ctrlRsvd d
  | .wrStatus d => TableRow.wrStatus d
  | .wrAcc d => TableRow.wrAcc d
  | .ckbyte d => TableRow.ckbyte d
  | .wrRxck d => TableRow.wrRxck d
  | .wrRsvd a d => TableRow.wrRsvd a d
  | .wrOfsLo d => TableRow.wrOfsLo d
  | .wrOfsHi d => TableRow.wrOfsHi d
  | .wrHdrStart d => TableRow.wrHdrStart d
  | .wrHdrDevice d => TableRow.wrHdrDevice d
  | .wrHdrAddress d => TableRow.wrHdrAddress d
  | .wrHdrCommand d => TableRow.wrHdrCommand d
  | .wrHdrItem d => TableRow.wrHdrItem d
  | .wrHdrLength d => TableRow.wrHdrLength d
  | .wrPbuf i d => TableRow.wrPbuf i d
  | .rdCtrl => TableRow.rdCtrl
  | .rdStatus => TableRow.rdStatus
  | .rdAcc => TableRow.rdAcc
  | .rdCkdata => TableRow.rdCkdata
  | .rdRxck => TableRow.rdRxck
  | .rdRsvd a => TableRow.rdRsvd a
  | .rdOfsLo => TableRow.rdOfsLo
  | .rdOfsHi => TableRow.rdOfsHi
  | .rdHdrStart => TableRow.rdHdrStart
  | .rdHdrDevice => TableRow.rdHdrDevice
  | .rdHdrAddress => TableRow.rdHdrAddress
  | .rdHdrCommand => TableRow.rdHdrCommand
  | .rdHdrItem => TableRow.rdHdrItem
  | .rdHdrLength => TableRow.rdHdrLength
  | .rdPbuf i => TableRow.rdPbuf i

theorem exists_row_of_isSentAs {i : Instr} {w : HostWord} (h : IsSentAs i w) :
    ∃ r ∈ opcodeTable, r.mnemonic = i.mnemonic ∧ r.matchesWord w = true := by
  obtain ⟨hwf, rfl⟩ := h
  exact tableRow_statement i hwf

/-- A row that fixes a bit of `D` fixes `W` to 1 and `A` to 0x00 (R72, R75). -/
theorem row_fixes_data_only_at_ctrl :
    ∀ r ∈ opcodeTable, r.mask &&& 0xFF = 0 ∨ (r.mask &&& 0x1FF00 = 0x1FF00 ∧ r.value &&& 0x1FF00 = 0x10000) := by
  decide

theorem and_fields_hostWord (w : Bool) (a d : Byte) : hostWord w a d &&& 0x1FF00 = hostWord w a 0 := by
  apply BitVec.eq_of_getLsbD_eq
  intro j hj
  unfold hostWord
  rw [BitVec.getLsbD_and, BitVec.getLsbD_append, BitVec.getLsbD_append (y := (0 : Byte))]
  interval_cases j <;> simp

/-- Off the writes to `CTRL`, the row that matches a word takes no part of `D`. -/
theorem mask_data_eq_zero {r : OpcodeRow} (hr : r ∈ opcodeTable) {w : Bool} {a d : Byte}
    (hwa : w = false ∨ a ≠ 0x00) (h : r.matchesWord (hostWord w a d) = true) : r.mask &&& 0xFF = 0 := by
  obtain hmask | ⟨hmask, hvalue⟩ := row_fixes_data_only_at_ctrl r hr
  · exact hmask
  · have hmatch : hostWord w a d &&& r.mask = r.value := by simpa [OpcodeRow.matchesWord] using h
    have hctrl : hostWord w a 0 = hostWord true 0x00 0 := by
      calc hostWord w a 0 = hostWord w a d &&& (r.mask &&& 0x1FF00) := by rw [hmask, and_fields_hostWord]
        _ = r.value &&& 0x1FF00 := by rw [← hmatch, BitVec.and_assoc]
        _ = hostWord true 0x00 0 := hvalue
    have hw : w = true := by simpa using congrArg wordIsWrite hctrl
    have ha : a = 0x00 := by simpa using congrArg wordAddress hctrl
    simp [hw, ha] at hwa

theorem exists_row_of_decode (w : HostWord) :
    ∃ r ∈ opcodeTable, r.mnemonic = (decode w).mnemonic ∧ r.matchesWord w = true := by
  rw [← hostWord_fields w]
  generalize wordAddress w = a, wordData w = d
  cases wordIsWrite w with
  | true =>
    rw [decode_write]
    exact exists_row_of_isSentAs (decodeWrite_isSentAs a d)
  | false =>
    rw [decode_read]
    obtain ⟨r, hr, hm, h⟩ := exists_row_of_isSentAs (decodeRead_isSentAs a)
    exact ⟨r, hr, hm, matchesWord_anyData r false a d (mask_data_eq_zero hr (.inl rfl) h) h⟩

/-! ## No two rows match -/

/-- Any two rows of the table disagree in a bit that both fix (R75: "The rows do not overlap"). -/
theorem opcodeTable_pairwise :
    opcodeTable.Pairwise (fun r r' => r.value &&& r'.mask ≠ r'.value &&& r.mask) := by
  decide

theorem value_and_mask_of_matches {r r' : OpcodeRow} {w : HostWord}
    (h : r.matchesWord w = true) (h' : r'.matchesWord w = true) :
    r.value &&& r'.mask = r'.value &&& r.mask := by
  have hr : w &&& r.mask = r.value := by simpa [OpcodeRow.matchesWord] using h
  have hr' : w &&& r'.mask = r'.value := by simpa [OpcodeRow.matchesWord] using h'
  rw [← hr, ← hr', BitVec.and_assoc, BitVec.and_assoc, BitVec.and_comm r.mask]

/-- Of rows that exclude one another, only the matching one is left. -/
theorem filter_matches_eq_singleton {r : OpcodeRow} {w : HostWord} (hr : r ∈ opcodeTable)
    (h : r.matchesWord w = true) : opcodeTable.filter (fun x => x.matchesWord w) = [r] := by
  have hmem : r ∈ opcodeTable.filter (fun x => x.matchesWord w) := List.mem_filter.2 ⟨hr, h⟩
  have hexcl := opcodeTable_pairwise.filter (fun x => x.matchesWord w)
  have hall : ∀ x ∈ opcodeTable.filter (fun x => x.matchesWord w), x.matchesWord w = true :=
    fun x hx => (List.mem_filter.1 hx).2
  match hl : opcodeTable.filter (fun x => x.matchesWord w) with
  | [] => simp [hl] at hmem
  | [x] => simpa [hl, eq_comm] using hmem
  | x :: y :: l =>
    rw [hl] at hexcl hall
    have hne := List.rel_of_pairwise_cons hexcl (List.mem_cons_self (a := y) (l := l))
    exact absurd (value_and_mask_of_matches (hall x (by simp)) (hall y (by simp))) hne

/-! ## The one row -/

theorem exists_unique_row (w : HostWord) :
    ∃ r, opcodeTable.filter (fun x => x.matchesWord w) = [r] ∧ (decode w).mnemonic = r.mnemonic := by
  obtain ⟨r, hr, hm, h⟩ := exists_row_of_decode w
  exact ⟨r, filter_matches_eq_singleton hr h, hm.symm⟩

theorem mnemonic_of_matches {r : OpcodeRow} {w : HostWord} (hr : r ∈ opcodeTable)
    (h : r.matchesWord w = true) : (decode w).mnemonic = r.mnemonic := by
  obtain ⟨r', hone, hm⟩ := exists_unique_row w
  rw [filter_matches_eq_singleton hr h] at hone
  rw [hm, List.singleton_inj.1 hone]

/-- The row of the word with `D` put to 0 also matches the word itself. -/
theorem mnemonic_anyData {isWrite : Bool} {a : Byte} (d : Byte) (hwa : isWrite = false ∨ a ≠ 0x00) :
    (decode (hostWord isWrite a d)).mnemonic = (decode (hostWord isWrite a 0)).mnemonic := by
  obtain ⟨r, hr, hm, h⟩ := exists_row_of_decode (hostWord isWrite a 0)
  rw [← hm]
  exact mnemonic_of_matches hr (matchesWord_anyData r isWrite a d (mask_data_eq_zero hr hwa h) h)

/-- Settles O3: the decoded instruction's row matches, the other 50 exclude it, and off `CTRL` writes that row leaves
`D` free. -/
theorem everyWordDecodesToItsOneRow : Obligations.EveryWordDecodesToItsOneRow := by
  constructor
  · intro w
    obtain ⟨r, hone, hm⟩ := exists_unique_row w
    exact ⟨r, hone, hm, decode_wellFormed w⟩
  · intro isWrite a d d' hwa
    rw [mnemonic_anyData d hwa, mnemonic_anyData d' hwa]

end Sys2Proof.Laws.OneRow
end

section
/-! PROOF. The Checksum-8 unit: `CKCLR` while idle (R102, R206), and the arithmetic of `ck8` (R100, R105). -/

namespace Sys2Proof.Machine

/-! ## CKCLR -/

theorem exec_ckclr (s : State) :
    exec .ckclr s = .next (s.guardedWrite (State.completeOk { s.acceptCommand with acc := .val 0x00 })) := rfl

/-- A completion leaves `PHASE` as it is where it already is `IDLE` (R206). -/
theorem State.completeOk_of_idle {s : State} (h : s.phase = .idle) :
    s.completeOk = { s with idx := 0, ok := true, fail := false, err := 0 } := by
  rw [State.completeOk, ← h]

/-- `OK` alone: not busy, no failure, no code (R171, R206). -/
theorem State.completeOk_statusByte (s : State) : s.completeOk.statusByte = 0x02 := by
  simp [State.statusByte, State.busy]

/-- Settles O8: while idle the write is no hazard, and the answer is a completion with `OK`, which reads 0x02. -/
theorem ckclrClears : Obligations.CkclrClears := by
  refine ⟨by decide, fun s h => ?_⟩
  have hexec := exec_ckclr s
  rw [State.guardedWrite_idle _ h] at hexec
  exact ⟨_, hexec, State.completeOk_statusByte _, State.completeOk_of_idle h⟩

/-! ## The sum and the checksum -/

@[simp] theorem byteSum_nil : byteSum [] = 0 := rfl

@[simp] theorem byteSum_cons (b : Byte) (bytes : List Byte) :
    byteSum (b :: bytes) = b.toNat + byteSum bytes := rfl

@[simp] theorem ck8_nil : ck8 [] = 0x00 := rfl

theorem ck8_toNat (bytes : List Byte) : (ck8 bytes).toNat = (256 - byteSum bytes % 256) % 256 := by
  simp [ck8]

/-- The mod 256 of the formula is that of the integers (R7). -/
theorem ck8_toNat_eq_emod (bytes : List Byte) :
    ((ck8 bytes).toNat : Int) = (0 - (byteSum bytes : Int)) % 256 := by
  rw [ck8_toNat]
  omega

/-- A covered byte more takes itself off the checksum. -/
theorem ck8_cons (b : Byte) (bytes : List Byte) : ck8 (b :: bytes) = ck8 bytes - b := by
  apply BitVec.eq_of_toNat_eq
  rw [BitVec.toNat_sub, ck8_toNat, ck8_toNat, byteSum_cons]
  have := b.isLt
  simp only [Config.checksumWidth_eq]
  omega

/-- The running subtraction (R100, R104) from any start: what it has taken off is the checksum. -/
theorem foldl_sub_eq_add_ck8 (bytes : List Byte) (acc : Byte) :
    bytes.foldl (fun acc b => acc - b) acc = acc + ck8 bytes := by
  induction bytes generalizing acc with
  | nil => simp
  | cons b bytes ih =>
    calc (b :: bytes).foldl (fun acc b => acc - b) acc
        = (acc - b) + ck8 bytes := ih (acc - b)
      _ = acc + (ck8 bytes - b) := by abel
      _ = acc + ck8 (b :: bytes) := by rw [ck8_cons]

/-- The test of R105: a byte is the checksum exactly when it completes the sum to a multiple of 256. -/
theorem eq_ck8_iff (bytes : List Byte) (c : Byte) :
    c = ck8 bytes ↔ (byteSum bytes + c.toNat) % 256 = 0 := by
  have hc : c.toNat < 256 := c.isLt
  rw [← BitVec.toNat_inj, ck8_toNat]
  omega

/-- Settles O11: the formulas are `ck8_toNat` and its integer form, the accumulator is the running subtraction from 0. -/
theorem checksumDescriptionsAgree : Obligations.ChecksumDescriptionsAgree := by
  refine ⟨fun bytes => ⟨ck8_toNat_eq_emod bytes, ck8_toNat bytes, ?_⟩, ck8_nil⟩
  calc bytes.foldl (fun acc b => acc - b) 0x00
      = 0x00 + ck8 bytes := foldl_sub_eq_add_ck8 bytes 0x00
    _ = ck8 bytes := zero_add _

/-- Settles O13 by the validation test `eq_ck8_iff`. -/
theorem validationLaw : Obligations.ValidationLaw := eq_ck8_iff

end Sys2Proof.Machine
end

section
/-! PROOF. The transmit steps of an encode: one acceptance in each `ENC_*` phase (spec/41_frame_encode.md R124 to
R127). -/

namespace Sys2Proof.Machine

section

variable {s : State} {a b len : Byte} {r : Reg}

/-! ## The byte presented, by phase (R124) -/

theorem State.txReg_encHdr (h : s.phase = .encHdr) : s.txReg = some (s.hdr.get (hdrFieldOf s.idx.toNat)) := by
  simp [State.txReg, h]

theorem State.txReg_encPay (h : s.phase = .encPay) : s.txReg = some (s.pbuf.read s.idx.toNat) := by
  simp [State.txReg, h]

theorem State.txReg_encCk (h : s.phase = .encCk) : s.txReg = some s.acc := by
  simp [State.txReg, h]

/-! ## An acceptance -/

/-- The presented register's byte goes to the consumer and the block steps on (R56); having taken the event from the
agenda does not change which byte that is. -/
theorem step_txAccept {rest : List Event} (ha : s.agenda = .txAccept :: rest) (hr : s.txReg = some r) :
    step s = .next (State.afterTx r
      { s with tx := s.tx ++ [r.value (Config.drawByte (s.tick + 1))], agenda := rest, tick := s.tick + 1 }) := by
  have presented : ({ s with agenda := rest, tick := s.tick + 1 } : State).txReg = some r := hr
  simp only [step_cons ha, performEvent, State.txAccept, presented]

theorem State.subtract_val (h : s.acc = .val a) : s.subtract (.val b) = { s with acc := .val (a - b) } := by
  rw [State.subtract, h, Reg.minus_val]

/-! ## The sequencer after the byte, by phase -/

theorem State.afterTx_encHdr (r : Reg) (h : s.phase = .encHdr) : s.afterTx r = (s.subtract r).afterTxHdr := by
  simp [State.afterTx, h]

theorem State.afterTx_encPay (r : Reg) (h : s.phase = .encPay) : s.afterTx r = (s.subtract r).afterTxPay := by
  simp [State.afterTx, h]

theorem State.afterTx_encCk (r : Reg) (h : s.phase = .encCk) : s.afterTx r = s.completeOk := by
  simp [State.afterTx, h]

/-- Below byte 5 the header goes on; after it `L` chooses between the checksum and the payload (R125). -/
theorem State.afterTxHdr_eq (hp : s.phase = .encHdr) (hl : s.hdr.length = .val len) :
    s.afterTxHdr = { s with
      idx := if s.idx.toNat < 5 then s.idx + 1 else 0,
      phase := if s.idx.toNat < 5 then .encHdr else if len = 0 then .encCk else .encPay } := by
  have no_payload : s.sequenceLength = 0 ↔ len = 0 := by
    rw [State.sequenceLength_val hl, ← BitVec.toNat_inj]
    rfl
  unfold State.afterTxHdr
  by_cases hi : s.idx.toNat < 5
  · simp only [if_pos hi, ← hp]
  · by_cases h0 : len = 0 <;> simp only [if_neg hi, no_payload, h0, if_true, if_false]

/-- Before byte `L − 1` the payload goes on; after it the checksum follows (R126). -/
theorem State.afterTxPay_eq (hp : s.phase = .encPay) (hl : s.hdr.length = .val len) :
    s.afterTxPay = { s with
      idx := if s.idx.toNat < len.toNat - 1 then s.idx + 1 else 0,
      phase := if s.idx.toNat < len.toNat - 1 then .encPay else .encCk } := by
  have more_follow : s.idx.toNat + 1 < s.sequenceLength ↔ s.idx.toNat < len.toNat - 1 := by
    rw [State.sequenceLength_val hl]
    omega
  unfold State.afterTxPay
  by_cases hi : s.idx.toNat < len.toNat - 1
  · simp only [more_follow, if_pos hi, ← hp]
  · simp only [more_follow, if_neg hi]

/-- A defined header byte is subtracted, and the sequencer moves on. -/
theorem State.afterTx_encHdr_val (hp : s.phase = .encHdr) (ha : s.acc = .val a) (hl : s.hdr.length = .val len) :
    s.afterTx (.val b) = { s with
      acc := .val (a - b),
      idx := if s.idx.toNat < 5 then s.idx + 1 else 0,
      phase := if s.idx.toNat < 5 then .encHdr else if len = 0 then .encCk else .encPay } := by
  rw [State.afterTx_encHdr _ hp, State.afterTxHdr_eq (s := s.subtract (.val b)) hp hl, State.subtract_val ha]

/-- A defined payload byte is subtracted, and the sequencer moves on. -/
theorem State.afterTx_encPay_val (hp : s.phase = .encPay) (ha : s.acc = .val a) (hl : s.hdr.length = .val len) :
    s.afterTx (.val b) = { s with
      acc := .val (a - b),
      idx := if s.idx.toNat < len.toNat - 1 then s.idx + 1 else 0,
      phase := if s.idx.toNat < len.toNat - 1 then .encPay else .encCk } := by
  rw [State.afterTx_encPay _ hp, State.afterTxPay_eq (s := s.subtract (.val b)) hp hl, State.subtract_val ha]

end

/-! ## The three transmit steps -/

/-- Settles O19: header byte `IDX` is presented, and `afterTx_encHdr_val` says what its acceptance does. -/
theorem txHeaderByte : Obligations.TxHeaderByte := by
  intro s a b len rest hagenda hphase _ hacc hbyte hlen
  have presented : s.txReg = some (.val b) := by rw [State.txReg_encHdr hphase, hbyte]
  exact (step_txAccept hagenda presented).trans
    (congrArg Host.Outcome.next (State.afterTx_encHdr_val hphase hacc hlen))

/-- Settles O20: payload byte `IDX` is presented, and `afterTx_encPay_val` says what its acceptance does. -/
theorem txPayloadByte : Obligations.TxPayloadByte := by
  intro s a b len rest hagenda hphase hacc hlen _ hbyte
  have presented : s.txReg = some (.val b) := by rw [State.txReg_encPay hphase, hbyte]
  exact (step_txAccept hagenda presented).trans
    (congrArg Host.Outcome.next (State.afterTx_encPay_val hphase hacc hlen))

/-- Settles O21: the checksum is presented, and its acceptance subtracts nothing: it is a completion with `OK`. -/
theorem txChecksumByte : Obligations.TxChecksumByte := by
  intro s a rest hagenda hphase hacc
  have presented : s.txReg = some (.val a) := by rw [State.txReg_encCk hphase, hacc]
  have completes := (step_txAccept hagenda presented).trans
    (congrArg Host.Outcome.next (State.afterTx_encCk (.val a) hphase))
  exact ⟨_, completes, State.completeOk_statusByte _, rfl⟩

end Sys2Proof.Machine
end

section
/-! PROOF. The receive side: `DEC` and one taken byte in each `DEC_*` phase (spec/42_frame_decode.md R140 to R146). -/

namespace Sys2Proof.Machine

section

variable {s : State} {a b len : Byte} {more : List RxEvent} {rest : List Event}

/-! ## DEC (R140) -/

/-- While idle the command is no hazard, and starts a decode. -/
theorem exec_dec_idle (h : s.phase = .idle) :
    exec .dec s = .next { s with
      acc := .val 0x00, idx := 0, phase := .decHdr, ok := false, fail := false, err := 0 } :=
  congrArg Host.Outcome.next (State.guardedWrite_idle _ h)

theorem step_dec_idle (h : s.phase = .idle) (ha : s.agenda = .host (encode .dec) :: rest) :
    step s = .next { s with
      acc := .val 0x00, idx := 0, phase := .decHdr, ok := false, fail := false, err := 0,
      agenda := rest, tick := s.tick + 1 } := by
  have decoded : decode (encode .dec) = .dec := by decide
  rw [step_cons ha, performEvent, decoded]
  exact exec_dec_idle h

/-- A running command with cleared flags reads as `BUSY` alone (R171, R207). -/
theorem State.statusByte_of_running (hp : s.phase ≠ .idle) (hok : s.ok = false) (hfail : s.fail = false)
    (herr : s.err = 0) : s.statusByte = 0x01 := by
  simp [State.statusByte, State.busy_eq_true hp, hok, hfail, herr]

/-! ## A byte taken, by phase (R57) -/

/-- A block that is ready takes the offered byte. -/
theorem step_rxByte (ha : s.agenda = .rxOffer :: rest) (hrx : s.rx = .byte b :: more) (hr : s.rxReady = true) :
    step s = .next (State.rxByte b { s with rx := more, agenda := rest, tick := s.tick + 1 }) := by
  simp only [step_cons ha, performEvent, State.rxOffer, hrx]
  exact congrArg Host.Outcome.next (if_pos hr)

theorem step_rxByte_decHdr (ha : s.agenda = .rxOffer :: rest) (hrx : s.rx = .byte b :: more)
    (hp : s.phase = .decHdr) :
    step s = .next (State.rxHdr b { s with rx := more, agenda := rest, tick := s.tick + 1 }) := by
  rw [step_rxByte ha hrx (by simp [State.rxReady, hp])]
  simp only [State.rxByte, hp]

theorem step_rxByte_decOfs (ha : s.agenda = .rxOffer :: rest) (hrx : s.rx = .byte b :: more)
    (hp : s.phase = .decOfs) :
    step s = .next (State.rxOfs b { s with rx := more, agenda := rest, tick := s.tick + 1 }) := by
  rw [step_rxByte ha hrx (by simp [State.rxReady, hp])]
  simp only [State.rxByte, hp]

theorem step_rxByte_decPay (ha : s.agenda = .rxOffer :: rest) (hrx : s.rx = .byte b :: more)
    (hp : s.phase = .decPay) :
    step s = .next (State.rxPay b { s with rx := more, agenda := rest, tick := s.tick + 1 }) := by
  rw [step_rxByte ha hrx (by simp [State.rxReady, hp])]
  simp only [State.rxByte, hp]

theorem step_rxByte_decCk (ha : s.agenda = .rxOffer :: rest) (hrx : s.rx = .byte b :: more)
    (hp : s.phase = .decCk) :
    step s = .next (State.rxCk b { s with rx := more, agenda := rest, tick := s.tick + 1 }) := by
  rw [step_rxByte ha hrx (by simp [State.rxReady, hp])]
  simp only [State.rxByte, hp]

/-! ## Header bytes (R141 to R143) -/

/-- Before byte 5 the byte is stored and subtracted, with no check (R141). -/
theorem State.rxHdr_below (hi : s.idx.toNat < 5) (hacc : s.acc = .val a) :
    s.rxHdr b = { s with
      hdr := s.hdr.set (hdrFieldOf s.idx.toNat) (.val b), acc := .val (a - b), idx := s.idx + 1 } := by
  simp only [State.rxHdr, if_pos hi, State.subtract, hacc, Reg.minus_val]

/-- Byte 5 is `length`; the header check follows it (R141, R142). -/
theorem State.rxHdr_last (hi : s.idx = 5) (hacc : s.acc = .val a) :
    s.rxHdr b = State.headerCheck { s with hdr := { s.hdr with length := .val b }, acc := .val (a - b) } := by
  have not_below : ¬ s.idx.toNat < 5 := by rw [hi]; decide
  have is_length : s.hdr.set (hdrFieldOf s.idx.toNat) (.val b) = { s.hdr with length := .val b } := by rw [hi]; rfl
  simp only [State.rxHdr, if_neg not_below, State.subtract, hacc, Reg.minus_val, is_length]

/-- A header with the marker and a legal length passes, and the length selects what follows (R142, R143). -/
theorem State.headerCheck_of_valid (hm : s.hdr.start = .val Config.startMarker) (hl : s.hdr.length = .val len)
    (hlen : len.toNat ≤ Config.maxPayload) :
    s.headerCheck = { s with idx := 0, phase := if 2 ≤ len.toNat then .decOfs else .decCk } := by
  obtain ⟨m, l, hm', hl', ⟨bad, -⟩ | ⟨-, long, -⟩ | ⟨-, -, passes⟩⟩ := State.headerCheck_cases s
  · exact absurd (hm' _ hm) bad
  · rw [hl' _ hl] at long
    omega
  · rw [passes, State.selectBody, State.sequenceLength_val hl]

/-! ## Offset bytes (R144) -/

theorem State.rxOfs_lo (hi : s.idx = 0) (hacc : s.acc = .val a) :
    s.rxOfs b = { s with ofsLo := .val b, acc := .val (a - b), idx := 1 } := by
  simp only [State.rxOfs, if_pos hi, State.subtract_val hacc]

theorem State.rxOfs_hi (hi : s.idx = 1) (hacc : s.acc = .val a) (hl : s.hdr.length = .val len) :
    s.rxOfs b = { s with
      ofsHi := .val b, acc := .val (a - b), idx := 0, phase := if 2 < len.toNat then .decPay else .decCk } := by
  have not_lo : s.idx ≠ 0 := by rw [hi]; decide
  simp only [State.rxOfs, if_neg not_lo, State.subtract_val hacc, State.sequenceLength_val hl]

/-! ## Payload bytes (R145) -/

/-- Before byte `L − 3` the payload goes on; after it the checksum follows. -/
theorem State.rxPay_eq (hp : s.phase = .decPay) (hacc : s.acc = .val a) (hl : s.hdr.length = .val len) :
    s.rxPay b = { s with
      pbuf := s.pbuf.write s.idx.toNat b, acc := .val (a - b),
      idx := if s.idx.toNat < len.toNat - 3 then s.idx + 1 else 0,
      phase := if s.idx.toNat < len.toNat - 3 then .decPay else .decCk } := by
  have more_follow : s.idx.toNat + 3 < s.sequenceLength ↔ s.idx.toNat < len.toNat - 3 := by
    rw [State.sequenceLength_val hl]
    omega
  by_cases hi : s.idx.toNat < len.toNat - 3
  · simp only [State.rxPay, more_follow, if_pos hi, State.subtract, hacc, Reg.minus_val, ← hp]
  · simp only [State.rxPay, more_follow, if_neg hi, State.subtract, hacc, Reg.minus_val]

/-! ## The checksum byte (R146, R149, R150) -/

/-- After a success `OFS` stays only where the frame carried an offset field. -/
theorem State.settleOffset_eq (hl : s.hdr.length = .val len) :
    s.settleOffset = { s with
      ofsLo := if len.toNat < 2 then .unspec else s.ofsLo,
      ofsHi := if len.toNat < 2 then .unspec else s.ofsHi } := by
  unfold State.settleOffset
  rw [State.sequenceLength_val hl]
  by_cases h : len.toNat < 2
  · simp only [if_pos h]
  · simp only [if_neg h]

/-- The received byte equals `ACC`: the decode completes with `OK`. -/
theorem State.rxCk_of_eq (hacc : s.acc = .val b) (hl : s.hdr.length = .val len) :
    s.rxCk b = State.completeOk { s with
      rxck := .val b,
      ofsLo := if len.toNat < 2 then .unspec else s.ofsLo,
      ofsHi := if len.toNat < 2 then .unspec else s.ofsHi } := by
  obtain ⟨-, passes⟩ | ⟨differs, -⟩ := State.rxCk_cases b s
  · exact passes.trans (congrArg State.completeOk (State.settleOffset_eq (s := { s with rxck := .val b }) hl))
  · exact absurd rfl (differs b hacc)

/-- The received byte differs from `ACC`: the decode fails with `CHECKSUM`. -/
theorem State.rxCk_of_ne (hacc : s.acc = .val a) (hne : a ≠ b) :
    s.rxCk b = State.decodeFail .checksum { s with rxck := .val b } := by
  obtain ⟨equal, -⟩ | ⟨-, fails⟩ := State.rxCk_cases b s
  · exact absurd (equal a hacc) hne
  · exact fails

/-- The byte taken in `DEC_CK` completes the decode, one way or the other. -/
theorem step_rxCk (ha : s.agenda = .rxOffer :: rest) (hrx : s.rx = .byte b :: more) (hp : s.phase = .decCk)
    (hacc : s.acc = .val a) (hl : s.hdr.length = .val len) :
    step s = .next (
      if a = b then State.completeOk { s with
        rxck := .val b,
        ofsLo := if len.toNat < 2 then .unspec else s.ofsLo,
        ofsHi := if len.toNat < 2 then .unspec else s.ofsHi,
        rx := more, agenda := rest, tick := s.tick + 1 }
      else State.decodeFail .checksum { s with rxck := .val b, rx := more, agenda := rest, tick := s.tick + 1 }) := by
  refine (step_rxByte_decCk ha hrx hp).trans (congrArg Host.Outcome.next ?_)
  by_cases h : a = b
  · rw [if_pos h]
    exact State.rxCk_of_eq (hacc.trans (congrArg Reg.val h)) hl
  · rw [if_neg h]
    exact State.rxCk_of_ne hacc h

/-- A failed decode reads as `FAIL` and its code (R171, R205). -/
theorem State.decodeFail_statusByte (c : Cause) (s : State) :
    (s.decodeFail c).statusByte = 0#1 ++ c.code ++ 0b0100#4 := by
  cases c <;> simp [State.statusByte, State.busy, Cause.code]

end

/-! ## The receive steps -/

/-- Settles O26: `exec_dec_idle`, whose state runs with cleared flags. -/
theorem decodeStarts : Obligations.DecodeStarts := by
  refine ⟨by decide, fun s h => ⟨_, exec_dec_idle h, ?_, rfl⟩⟩
  exact State.statusByte_of_running (by simp) rfl rfl rfl

/-- Settles O29: `rxOfs_lo` and `rxOfs_hi` say what the taken byte does at `IDX` 0 and 1. -/
theorem rxOffsetByte : Obligations.RxOffsetByte := by
  intro s a b len more rest hagenda hrx hphase hacc hlen
  have taken := step_rxByte_decOfs hagenda hrx hphase
  exact ⟨fun hidx => taken.trans (congrArg Host.Outcome.next (State.rxOfs_lo hidx hacc)),
    fun hidx => taken.trans (congrArg Host.Outcome.next (State.rxOfs_hi hidx hacc hlen))⟩

/-- Settles O30: `rxPay_eq` says what the taken byte does, and `PBUF` reads as after one write. -/
theorem rxPayloadByte : Obligations.RxPayloadByte := by
  intro s a b len more rest hagenda hrx hphase hacc hlen _
  have taken := (step_rxByte_decPay hagenda hrx hphase).trans
    (congrArg Host.Outcome.next (State.rxPay_eq hphase hacc hlen))
  exact ⟨_, taken, fun k => Memory.read_write s.pbuf s.idx.toNat k b, rfl⟩

end Sys2Proof.Machine
end

section
/-! PROOF. A decode from `DEC` through its header (R140 to R143), and the frame of length 1, whose checksum is the byte
after the header (R152). -/

namespace Sys2Proof.Machine

open Sys2Proof.Safety

/-- The header with `bytes` stored from byte `i` on (R141). -/
def Header.store (h : Header) (i : Nat) (bytes : List Byte) : Header :=
  match bytes with
  | [] => h
  | b :: bytes => (h.set (hdrFieldOf i) (.val b)).store (i + 1) bytes

/-- A covered byte more takes itself off the checksum, at the end of the frame too. -/
theorem ck8_concat (bytes : List Byte) (b : Byte) : ck8 (bytes ++ [b]) = ck8 bytes - b := by
  induction bytes with
  | nil => rw [List.nil_append, ck8_cons]
  | cons x xs ih => rw [List.cons_append, ck8_cons, ck8_cons, ih, sub_right_comm]

/-- Bytes followed by their own checksum have checksum 0x00 (R105, R152). -/
theorem ck8_concat_ck8 (bytes : List Byte) : ck8 (bytes ++ [ck8 bytes]) = 0x00 := by
  rw [ck8_concat]
  exact BitVec.sub_self _

section

variable {s : State} {a device address command item len : Byte} {more : List RxEvent} {rest : List Event}

/-- Header bytes before byte 5 are stored in order, each subtracted, with no check among them (R141). -/
theorem run_rxHdr_below (bytes : List Byte) (hp : s.phase = .decHdr) (hi : s.idx.toNat + bytes.length ≤ 5)
    (hacc : s.acc = .val a) (hrx : s.rx = delivered bytes ++ more)
    (ha : s.agenda = List.replicate bytes.length .rxOffer ++ rest) :
    Host.Core.run Sys2Proof.core bytes.length s = .next { s with
      hdr := s.hdr.store s.idx.toNat bytes, acc := .val (a + ck8 bytes),
      idx := s.idx + BitVec.ofNat 7 bytes.length, rx := more, agenda := rest, tick := s.tick + bytes.length } := by
  induction bytes generalizing s a with
  | nil =>
    have nothing_offered : s.rx = more ∧ s.agenda = rest := ⟨hrx, ha⟩
    obtain ⟨rfl, rfl⟩ := nothing_offered
    simp [run_zero, Header.store, ← hacc]
  | cons b bytes ih =>
    rw [List.length_cons] at hi
    have below : s.idx.toNat < 5 := by omega
    have next_idx : (s.idx + 1).toNat = s.idx.toNat + 1 := by
      rw [BitVec.toNat_add]
      exact Nat.mod_eq_of_lt (show s.idx.toNat + 1 < 2 ^ 7 by omega)
    have first := (step_rxByte_decHdr ha hrx hp).trans
      (congrArg Host.Outcome.next (State.rxHdr_below (b := b) below hacc))
    have acc_sum : a - b + ck8 bytes = a + (ck8 bytes - b) := by abel
    have idx_sum : s.idx + 1 + BitVec.ofNat 7 bytes.length = s.idx + BitVec.ofNat 7 (bytes.length + 1) := by
      rw [BitVec.ofNat_add, BitVec.add_assoc, BitVec.add_comm (1 : BitVec 7)]
      rfl
    have tick_sum : s.tick + 1 + bytes.length = s.tick + (bytes.length + 1) := by omega
    refine Eq.trans (run_succ bytes.length first) (Eq.trans (ih hp (by simp only [next_idx]; omega) rfl rfl rfl) ?_)
    simp only [next_idx, Header.store, ck8_cons, acc_sum, idx_sum, tick_sum, List.length_cons]

/-- The byte that ends a header with the marker and a legal length (R141 to R143). -/
theorem step_rxHdr_last (ha : s.agenda = .rxOffer :: rest) (hrx : s.rx = .byte len :: more)
    (hp : s.phase = .decHdr) (hi : s.idx = 5) (hacc : s.acc = .val a)
    (hm : s.hdr.start = .val Config.startMarker) (hlen : len.toNat ≤ Config.maxPayload) :
    step s = .next { s with
      hdr := { s.hdr with length := .val len }, acc := .val (a - len), idx := 0,
      phase := if 2 ≤ len.toNat then .decOfs else .decCk, rx := more, agenda := rest, tick := s.tick + 1 } :=
  (step_rxByte_decHdr ha hrx hp).trans (congrArg Host.Outcome.next
    (Eq.trans (State.rxHdr_last hi hacc) (State.headerCheck_of_valid hm rfl hlen)))

/-- A header with the marker and a legal length is stored, `ACC` is its checksum, and its length selects what follows
(R141 to R143). -/
theorem run_rxHdr_valid (hp : s.phase = .decHdr) (hi : s.idx = 0) (hacc : s.acc = .val 0x00)
    (hlen : len.toNat ≤ Config.maxPayload)
    (hrx : s.rx = delivered [Config.startMarker, device, address, command, item, len] ++ more)
    (ha : s.agenda = List.replicate 6 .rxOffer ++ rest) :
    Host.Core.run Sys2Proof.core 6 s = .next { s with
      phase := if 2 ≤ len.toNat then .decOfs else .decCk, idx := 0,
      hdr := { start := .val Config.startMarker, device := .val device, address := .val address,
               command := .val command, item := .val item, length := .val len },
      acc := .val (ck8 [Config.startMarker, device, address, command, item, len]),
      rx := more, agenda := rest, tick := s.tick + 6 } := by
  have first_five := run_rxHdr_below (more := .byte len :: more) (rest := .rxOffer :: rest)
    [Config.startMarker, device, address, command, item] hp (by simp [hi]) hacc hrx ha
  have idx_five : s.idx + BitVec.ofNat 7 5 = 5 := by rw [hi]; rfl
  have stored : s.hdr.store s.idx.toNat [Config.startMarker, device, address, command, item] =
      { s.hdr with start := .val Config.startMarker, device := .val device, address := .val address,
                   command := .val command, item := .val item } := by
    rw [hi]; rfl
  have checksum : (0x00 : Byte) + ck8 [Config.startMarker, device, address, command, item] - len =
      ck8 [Config.startMarker, device, address, command, item, len] := by
    rw [zero_add, ← ck8_concat]; rfl
  rw [stored] at first_five
  refine Eq.trans (run_add 5 1 first_five) (Eq.trans (run_succ 0 (step_rxHdr_last rfl rfl hp idx_five rfl rfl hlen)) ?_)
  rw [checksum]
  rfl

/-- `DEC` while idle, then such a header. -/
theorem run_dec_header (hidle : s.phase = .idle) (hlen : len.toNat ≤ Config.maxPayload)
    (hrx : s.rx = delivered [Config.startMarker, device, address, command, item, len] ++ more)
    (ha : s.agenda = .host (encode .dec) :: (List.replicate 6 .rxOffer ++ rest)) :
    Host.Core.run Sys2Proof.core 7 s = .next { s with
      phase := if 2 ≤ len.toNat then .decOfs else .decCk, idx := 0, ok := false, fail := false, err := 0,
      hdr := { start := .val Config.startMarker, device := .val device, address := .val address,
               command := .val command, item := .val item, length := .val len },
      acc := .val (ck8 [Config.startMarker, device, address, command, item, len]),
      rx := more, agenda := rest, tick := s.tick + 7 } := by
  refine Eq.trans (run_succ 6 (step_dec_idle hidle ha))
    (Eq.trans (run_rxHdr_valid (rest := rest) rfl rfl rfl hlen hrx rfl) ?_)
  simp only [Nat.add_assoc]

end

/-- Settles O36: at length 1 the checksum byte follows the header at once (R143), and is compared with the header's
checksum (R146). -/
theorem decodeLengthOne : Obligations.DecodeLengthOne := by
  intro s device address command item p more rest hidle hrx hagenda
  have header_read := run_dec_header (len := 1) (more := .byte p :: more) (rest := .rxOffer :: rest)
    hidle (by decide) hrx hagenda
  have checked := (run_add 7 1 header_read).trans (run_succ 0 (step_rxCk (b := p) rfl rfl rfl rfl rfl))
  by_cases hp : p = ck8 [Config.startMarker, device, address, command, item, 1]
  · rw [if_pos hp.symm] at checked
    have zero_sum : ck8 [Config.startMarker, device, address, command, item, 1, p] = 0x00 := by
      rw [hp]
      exact ck8_concat_ck8 [Config.startMarker, device, address, command, item, 1]
    refine ⟨_, checked, rfl, rfl, ?_, fun _ => ⟨zero_sum, rfl, rfl, rfl, rfl, congrArg Reg.val hp.symm⟩⟩
    rw [if_pos hp, State.completeOk_statusByte]
  · rw [if_neg (Ne.symm hp)] at checked
    refine ⟨_, checked, rfl, rfl, ?_, fun h => absurd h hp⟩
    rw [if_neg hp, State.decodeFail_statusByte]
    rfl

end Sys2Proof.Machine
end

section
/-! PROOF. The accesses whose answer no register decides: the constant reads (R177), the ignored writes (R180) and the
reserved commands (R183). -/

namespace Sys2Proof.Machine

/-! ## What the decoder answers at the reserved locations and for the reserved commands (R52, R74) -/

theorem decodeRead_rsvd {a : Byte} (h : isReservedLocation a = true) : decodeRead a = .rdRsvd a := by
  have not_pbuf : ¬ a.getLsbD 7 = true := by revert a; decide
  unfold decodeRead
  split
  case h_14 => exact if_neg not_pbuf
  all_goals simp_all [isReservedLocation]

theorem decodeCommand_rsvd {d : Byte} (h : isReservedCommand d = true) : decodeCommand d = .ctrlRsvd d := by
  unfold decodeCommand
  split
  case h_5 => rfl
  all_goals simp_all [isReservedCommand, BitVec.toNat_eq]

/-- The addresses of the constant reads: `CTRL`, `CKDATA` and the reserved locations (R177). -/
theorem constantRead_address_cases {a : Byte}
    (h : a = 0x00 ∨ a = 0x03 ∨ a = 0x05 ∨ (0x0E ≤ a.toNat ∧ a.toNat ≤ 0x7F)) :
    a = 0x00 ∨ a = 0x03 ∨ isReservedLocation a = true := by
  simpa [isReservedLocation] using h

/-- The addresses of the ignored writes: `STATUS`, `ACC`, `RXCK`, `OFS` and the reserved locations, of which 0x05 lies
among the registers (R51, R180). -/
theorem ignoredWrite_address_cases {a : Byte}
    (h : a = 0x01 ∨ a = 0x02 ∨ (0x04 ≤ a.toNat ∧ a.toNat ≤ 0x07) ∨ (0x0E ≤ a.toNat ∧ a.toNat ≤ 0x7F)) :
    a = 0x01 ∨ a = 0x02 ∨ a = 0x04 ∨ a = 0x06 ∨ a = 0x07 ∨ isReservedLocation a = true := by
  revert a
  decide

/-! ## The reserved locations (R177, R180) -/

theorem exec_rdRsvd (a : Byte) (s : State) : exec (.rdRsvd a) s = .next (s.returnByte 0x00) := rfl

theorem exec_wrRsvd (a d : Byte) (s : State) : exec (.wrRsvd a d) s = .next s := rfl

/-- Settles O42: the decoder sends each of these addresses to one of the three reads, and none of the three looks at a
register. -/
theorem constantReadsReturnZero : Obligations.ConstantReadsReturnZero := by
  refine fun s a => ⟨rfl, rfl, exec_rdRsvd a s, fun d h => ?_⟩
  rw [decode_read]
  obtain rfl | rfl | reserved := constantRead_address_cases h
  · rfl
  · rfl
  · rw [decodeRead_rsvd reserved]
    exact exec_rdRsvd a s

/-- Settles O48: the decoder sends each of these addresses to one of the six writes, and none of the six is guarded by
`BUSY` or stores. -/
theorem ignoredWritesDoNothing : Obligations.IgnoredWritesDoNothing := by
  refine fun s a d => ⟨rfl, rfl, rfl, rfl, rfl, exec_wrRsvd a d s, fun h => ?_⟩
  rw [decode_write]
  obtain rfl | rfl | rfl | rfl | rfl | reserved := ignoredWrite_address_cases h
  · rfl
  · rfl
  · rfl
  · rfl
  · rfl
  · rw [Laws.OneRow.decodeWrite_rsvd d reserved]
    exact exec_wrRsvd a d s

/-! ## The reserved commands (R183) -/

theorem exec_ctrlRsvd (d : Byte) (s : State) :
    exec (.ctrlRsvd d) s = .next (s.guardedWrite (s.acceptCommand.completeFail .badCmd)) := rfl

/-- A failure leaves `PHASE` as it is where it already is `IDLE`, and what `accept_command()` cleared it sets itself
(R205, R207). -/
theorem State.acceptCommand_completeFail_of_idle {s : State} (c : Cause) (h : s.phase = .idle) :
    s.acceptCommand.completeFail c = { s with idx := 0, ok := false, fail := true, err := c.code } := by
  rw [State.completeFail, ← h]
  rfl

/-- `FAIL` and the code of its cause: not busy, not `OK` (R171, R205). -/
theorem State.completeFail_statusByte (c : Cause) (s : State) :
    (s.completeFail c).statusByte = 0#1 ++ c.code ++ 0b0100#4 := by
  cases c <;> simp [State.statusByte, State.busy, Cause.code]

/-- Settles O49: while idle the write is no hazard, and the answer is a failure with `BADCMD`, which gives up no
output. -/
theorem reservedCommandFails : Obligations.ReservedCommandFails := by
  refine fun d => ⟨fun h => ?_, fun s hidle => ?_⟩
  · have reserved : isReservedCommand d = true := by simpa [isReservedCommand, and_assoc] using h
    rw [decode_write]
    exact decodeCommand_rsvd reserved
  · have fails := exec_ctrlRsvd d s
    rw [State.guardedWrite_idle _ hidle] at fails
    exact ⟨_, fails, State.completeFail_statusByte .badCmd _, State.acceptCommand_completeFail_of_idle .badCmd hidle⟩

end Sys2Proof.Machine
end

section
/-! PROOF. Reset: the collected reset values, and the `Reset` event (spec/70_reset_and_hazards.md R230 to R232). -/

namespace Sys2Proof.Machine

/-- A block that is idle with no completion to report shows neither `OK` nor `FAIL`, and no cause (R171). -/
theorem State.statusByte_eq_zero {s : State} (hidle : s.phase = .idle) (hok : s.ok = false) (hfail : s.fail = false)
    (herr : s.err = 0) : s.statusByte = 0x00 := by
  have not_busy : s.busy = false := by simp [State.busy, hidle]
  rw [State.statusByte, not_busy, hok, hfail, herr]
  rfl

/-- Settles O54: each field has its reset value by definition; the status byte is that of an idle block with its flags
clear, and an unset header and an empty payload buffer read `UNSPEC` at every index. -/
theorem resetStateValues : Obligations.ResetStateValues :=
  ⟨rfl, rfl, rfl, State.statusByte_eq_zero rfl rfl rfl rfl, Header.get_unspec, rfl, rfl, rfl, Memory.read_nil⟩

/-- The `Reset` event is performed in any phase alike: nothing guards it (R230). -/
theorem performEvent_reset (s : State) : performEvent .reset s = .next s.resetBlock := rfl

/-- Settles O55: the step takes the event from the agenda, and the reset of the block keeps the environment's side, as
the taking left it. -/
theorem resetEventRestores : Obligations.ResetEventRestores := by
  intro s rest hagenda
  rw [step_cons hagenda, performEvent_reset, State.resetBlock]

end Sys2Proof.Machine
end

section
/-! PROOF. Encoding and decoding are inverse to one another (spec/30_encoding.md R70 to R75, R80). -/

namespace Sys2Proof

open Sys2Proof.Laws.OneRow

theorem decodeRead_pbuf (i : BitVec 7) : decodeRead (1#1 ++ i) = .rdPbuf i := by
  revert i
  decide

/-- Settles O1: an instruction with a fixed address decodes by the fields of its word; the reserved operands and the
payload indices by the decoder's laws about them. -/
theorem decodeOfEncode : Obligations.DecodeOfEncode := by
  intro i hwf
  cases i
  case ctrlRsvd d => exact (decode_write 0x00 d).trans (Machine.decodeCommand_rsvd hwf)
  case wrRsvd a d => exact (decode_write a d).trans (decodeWrite_rsvd d hwf)
  case wrPbuf i d => exact (decode_write _ d).trans (decodeWrite_pbuf i d)
  case rdRsvd a => exact (decode_read a 0).trans (Machine.decodeRead_rsvd hwf)
  case rdPbuf i => exact (decode_read _ 0).trans (decodeRead_pbuf i)
  case ckclr | enc | encP | dec | rdCtrl | rdStatus | rdAcc | rdCkdata | rdRxck | rdOfsLo | rdOfsHi | rdHdrStart
      | rdHdrDevice | rdHdrAddress | rdHdrCommand | rdHdrItem | rdHdrLength => decide
  all_goals exact decode_write _ _

/-- Settles O2: the decoder answers an instruction that is sent as the decoded word (`decodeWrite_isSentAs`,
`decodeRead_isSentAs`), and a write's word is its three fields. -/
theorem encodeOfDecode : Obligations.EncodeOfDecode := by
  intro w
  unfold decode
  split
  · rename_i hw
    rw [(decodeWrite_isSentAs _ _).2, ← hw, hostWord_fields]
  · exact (decodeRead_isSentAs _).2

/-- Settles O4: each of the fifteen words is closed, and the decoder is run on it. -/
theorem specWordsDecode : Obligations.SpecWordsDecode := by
  unfold Obligations.SpecWordsDecode
  decide

end Sys2Proof
end

section
/-! PROOF. Single steps and runs (spec/00_scope.md R9; spec/10_state.md R32): the event taken, and that every run goes
on (spec/60_exceptions.md R200). -/

namespace Sys2Proof.Machine

/-- The access that the host places on the port is the next step's (R59). -/
theorem step_offerWord (w : HostWord) (s : State) :
    step (s.offerWord w) = exec (decode w) { s with tick := s.tick + 1 } :=
  step_cons (State.offerWord_agenda w s)

/-- Bits that decode to an instruction spell a host word, and placing them places that word. -/
theorem withFetchWord_of_decodeTableWord {nbits w : Nat} {i : Instr} (s : State)
    (h : decodeTableWord nbits w = some i) : ∃ word, s.withFetchWord nbits w = s.offerWord word ∧ decode word = i := by
  unfold decodeTableWord at h
  unfold State.withFetchWord
  cases hw : hostWordOf nbits w with
  | ok word =>
    simp only [hw, Option.some.injEq] at h
    exact ⟨word, rfl, h⟩
  | error e => simp [hw] at h

/-- Settles O5: `step_cons` for an access on the agenda, `step_offerWord` for one that is placed. -/
theorem stepRunsDecodedHostWord : Obligations.StepRunsDecodedHostWord := by
  refine ⟨fun s w rest h => step_cons h, fun s nbits w i h => ?_⟩
  obtain ⟨word, placed, rfl⟩ := withFetchWord_of_decodeTableWord s h
  rw [placed]
  exact step_offerWord word s

/-- Settles O6 by `step_empty`. -/
theorem noEventHoldsState : Obligations.NoEventHoldsState := fun _ h => step_empty h

/-- Settles O7, by induction on the number of steps: every step answers a next state, whatever it uses. -/
theorem everyRunGoesOn : Obligations.EveryRunGoesOn := by
  intro k
  induction k with
  | zero => exact fun s => ⟨s, run_zero s⟩
  | succ k ih =>
    intro s
    obtain ⟨t, hs⟩ := step_next s
    rw [run_succ k hs]
    exact ih t

end Sys2Proof.Machine
end

section
/-! PROOF. What a host access can do, said once (spec/43_register_access.md R170 to R183): a read returns a byte, an
ignored write does nothing, a command and a stored write are guarded by `BUSY`. -/

namespace Sys2Proof.Machine

open Sys2Proof.Safety

/-- The state a write to `CTRL` leaves while idle (R102, R120, R140, R183). -/
inductive CommandEffect (i : Instr) (s : State) : State → Prop where
  | clear : CommandEffect i s (State.completeOk { s.acceptCommand with acc := .val 0x00 })
  | encode (p : Bool) (hi : isEncode i = true) : CommandEffect i s (s.acceptEncode p)
  | decode : CommandEffect i s { s.acceptCommand with acc := .val 0x00, idx := 0, phase := .decHdr }
  | reserved : CommandEffect i s (s.acceptCommand.completeFail .badCmd)

/-- The state a write to `CKDATA`, `HDR` or `PBUF` leaves while idle (R103, R178, R179). -/
inductive StoreEffect (s : State) : State → Prop where
  | checksum (d : Byte) : StoreEffect s (s.subtract (.val d))
  | header (f : HdrField) (d : Byte) : StoreEffect s { s with hdr := s.hdr.set f (.val d) }
  | payload (i : BitVec 7) (d : Byte) : StoreEffect s { s with pbuf := s.pbuf.write i.toNat d }

/-- The four kinds of host access, with the state each answers. -/
inductive AccessEffect (i : Instr) (s : State) : State → Prop where
  | read (b : Byte) (hread : wordIsWrite (encode i) = false) (hguard : isGuardedWrite i = false) :
      AccessEffect i s (s.returnByte b)
  | ignored (hwrite : wordIsWrite (encode i) = true) (hguard : isGuardedWrite i = false) : AccessEffect i s s
  | command {t : State} (hwrite : wordIsWrite (encode i) = true) (hctrl : wordAddress (encode i) = 0x00)
      (hguard : isGuardedWrite i = true) (heffect : CommandEffect i s t) : AccessEffect i s (s.guardedWrite t)
  | store {t : State} (hwrite : wordIsWrite (encode i) = true) (hctrl : wordAddress (encode i) ≠ 0x00)
      (hguard : isGuardedWrite i = true) (heffect : StoreEffect s t) : AccessEffect i s (s.guardedWrite t)

theorem pbuf_address_ne_ctrl (i : BitVec 7) : (1#1 ++ i : Byte) ≠ 0x00 := by
  revert i
  decide

/-- What a host access can do. -/
theorem exec_cases {i : Instr} {s t : State} (h : exec i s = .next t) : AccessEffect i s t := by
  have at_ctrl (d : Byte) : wordAddress (hostWord true 0x00 d) = 0x00 := wordAddress_hostWord true 0x00 d
  have off_ctrl (a d : Byte) (ha : a ≠ 0x00) : wordAddress (hostWord true a d) ≠ 0x00 := by
    rwa [wordAddress_hostWord]
  cases i <;> obtain rfl := Host.Outcome.next.inj h
  case ckclr => exact .command (wordIsWrite_hostWord _ _ _) (at_ctrl _) rfl .clear
  case enc => exact .command (wordIsWrite_hostWord _ _ _) (at_ctrl _) rfl (.encode false rfl)
  case encP => exact .command (wordIsWrite_hostWord _ _ _) (at_ctrl _) rfl (.encode true rfl)
  case dec => exact .command (wordIsWrite_hostWord _ _ _) (at_ctrl _) rfl .decode
  case ctrlRsvd d => exact .command (wordIsWrite_hostWord _ _ _) (at_ctrl _) rfl .reserved
  case ckbyte d => exact .store (wordIsWrite_hostWord _ _ _) (off_ctrl _ _ (by decide)) rfl (.checksum d)
  case wrHdrStart d => exact .store (wordIsWrite_hostWord _ _ _) (off_ctrl _ _ (by decide)) rfl (.header .start d)
  case wrHdrDevice d => exact .store (wordIsWrite_hostWord _ _ _) (off_ctrl _ _ (by decide)) rfl (.header .device d)
  case wrHdrAddress d => exact .store (wordIsWrite_hostWord _ _ _) (off_ctrl _ _ (by decide)) rfl (.header .address d)
  case wrHdrCommand d => exact .store (wordIsWrite_hostWord _ _ _) (off_ctrl _ _ (by decide)) rfl (.header .command d)
  case wrHdrItem d => exact .store (wordIsWrite_hostWord _ _ _) (off_ctrl _ _ (by decide)) rfl (.header .item d)
  case wrHdrLength d => exact .store (wordIsWrite_hostWord _ _ _) (off_ctrl _ _ (by decide)) rfl (.header .length d)
  case wrPbuf i d =>
    exact .store (wordIsWrite_hostWord _ _ _) (off_ctrl _ _ (pbuf_address_ne_ctrl i)) rfl (.payload i d)
  case wrStatus | wrAcc | wrRxck | wrRsvd | wrOfsLo | wrOfsHi => exact .ignored (wordIsWrite_hostWord _ _ _) rfl
  all_goals exact .read _ (wordIsWrite_hostWord _ _ _) rfl

/-- While a command runs, an access returns a byte, does nothing or is the busy hazard; the last for the guarded writes
(R234). -/
theorem exec_busy_cases {i : Instr} {s t : State} (hp : s.phase ≠ .idle) (h : exec i s = .next t) :
    (isGuardedWrite i = false ∧ ((∃ b, t = s.returnByte b) ∨ t = s)) ∨
      (isGuardedWrite i = true ∧ t = s.busyHazard) := by
  cases exec_cases h with
  | read b _ hguard => exact .inl ⟨hguard, .inl ⟨b, rfl⟩⟩
  | ignored _ hguard => exact .inl ⟨hguard, .inr rfl⟩
  | command _ _ hguard => exact .inr ⟨hguard, State.guardedWrite_busy _ hp⟩
  | store _ _ hguard => exact .inr ⟨hguard, State.guardedWrite_busy _ hp⟩

/-- The reads of a register return it (R172 to R176). -/
theorem exec_of_readRegister {i : Instr} {s : State} {r : Reg} (h : readRegister i s = some r) :
    exec i s = .next (s.returnReg r) := by
  cases i
  case rdAcc | rdRxck | rdOfsLo | rdOfsHi | rdHdrStart | rdHdrDevice | rdHdrAddress | rdHdrCommand | rdHdrItem
      | rdHdrLength | rdPbuf => rw [← Option.some.inj h]; rfl
  all_goals cases h

/-- While idle, the byte that a register holds is the byte returned. -/
theorem State.returnReg_of_idle {s : State} {b : Byte} (h : s.phase = .idle) :
    s.returnReg (.val b) = { s with reads := s.reads ++ [b] } := by
  simp [State.returnReg, State.busy_eq_false h, State.returnByte]

theorem exec_read_idle {i : Instr} {s : State} {r : Reg} {b : Byte} (hp : s.phase = .idle)
    (hi : readRegister i s = some r) (hr : r = .val b) : exec i s = .next { s with reads := s.reads ++ [b] } := by
  rw [exec_of_readRegister hi, hr, State.returnReg_of_idle hp]

/-! ## Reads -/

/-- Settles O40: of the four kinds of access only a read's word has `W` 0. -/
theorem readsChangeNoState : Obligations.ReadsChangeNoState := by
  intro i s hread
  obtain ⟨t, h⟩ := exec_next i s
  cases exec_cases h with
  | read b => exact ⟨b, h⟩
  | ignored hwrite | command hwrite | store hwrite => simp [hread] at hwrite

/-- Settles O41: `exec_read_idle` for each of the reads that return a register. -/
theorem readsReturnRegisters : Obligations.ReadsReturnRegisters := by
  intro s b hp
  exact ⟨exec_read_idle hp rfl, exec_read_idle hp rfl, exec_read_idle hp rfl, exec_read_idle hp rfl,
    exec_read_idle hp rfl, exec_read_idle hp rfl, exec_read_idle hp rfl, exec_read_idle hp rfl,
    exec_read_idle hp rfl, exec_read_idle hp rfl, fun _ => exec_read_idle hp rfl⟩

/-- Settles O45: a clean read finds the block idle and the register defined (`accessFault_eq_false_iff`). -/
theorem cleanReadReturnsRegister : Obligations.CleanReadReturnsRegister := by
  intro s w rest r hagenda hclean hread
  rw [programFault_host hagenda, accessFault_eq_false_iff] at hclean
  obtain ⟨-, -, hdefined⟩ := hclean
  have taken : readRegister (decode w) { s with agenda := rest, tick := s.tick + 1 } = some r := by
    rw [← hread]; cases decode w <;> rfl
  obtain ⟨idle, hr⟩ := hdefined r taken
  have hp : s.phase = .idle := by simpa [State.busy] using idle
  cases r with
  | unspec => exact absurd rfl hr
  | val b => exact ⟨b, rfl, (step_cons hagenda).trans (exec_read_idle hp taken rfl)⟩

/-! ## Writes -/

theorem exec_ckbyte (d : Byte) (s : State) : exec (.ckbyte d) s = .next (s.guardedWrite (s.subtract (.val d))) := rfl

theorem exec_wrPbuf (i : BitVec 7) (d : Byte) (s : State) :
    exec (.wrPbuf i d) s = .next (s.guardedWrite { s with pbuf := s.pbuf.write i.toNat d }) := rfl

/-- While idle, `CKBYTE d` is one subtraction (R103, R104). -/
theorem exec_ckbyte_idle {s : State} (d : Byte) (h : s.phase = .idle) :
    exec (.ckbyte d) s = .next (s.subtract (.val d)) := by
  rw [exec_ckbyte, State.guardedWrite_idle _ h]

theorem State.writeHdr_idle {s : State} (f : HdrField) (d : Byte) (h : s.phase = .idle) :
    s.writeHdr f d = { s with hdr := s.hdr.set f (.val d) } := State.guardedWrite_idle _ h

/-- Settles O46: each write is `writeHdr` of its own field. -/
theorem headerWritesStore : Obligations.HeaderWritesStore := by
  intro s d hp
  have stored (f : HdrField) : (Host.Outcome.next (s.writeHdr f d) : Host.Outcome State Fault Refusal) =
      .next { s with hdr := s.hdr.set f (.val d) } := congrArg Host.Outcome.next (State.writeHdr_idle f d hp)
  exact ⟨stored .start, stored .device, stored .address, stored .command, stored .item, stored .length⟩

/-- Settles O47: while idle the answer is the buffer's own write, and `Memory.read_write` says what it reads. -/
theorem payloadWriteStores : Obligations.PayloadWriteStores := by
  intro s i d hp
  have stored := exec_wrPbuf i d s
  rw [State.guardedWrite_idle _ hp] at stored
  exact ⟨_, stored, rfl, fun k => Memory.read_write s.pbuf i.toNat k d⟩

/-- Settles O50: a guarded write while busy is the hazard (`exec_busy_cases`), whose registers read `UNSPEC`. -/
theorem busyWriteLeavesUnspec : Obligations.BusyWriteLeavesUnspec := by
  intro s i hp hguard
  obtain ⟨t, h⟩ := exec_next i s
  obtain ⟨unguarded, -⟩ | ⟨-, rfl⟩ := exec_busy_cases hp h
  · simp [hguard] at unguarded
  · exact ⟨_, h, rfl, Header.get_unspec, rfl, rfl, rfl, Memory.read_nil, rfl⟩

/-! ## What no access, and what only a command changes -/

/-- The environment's side of the block: the two streams, the agenda and the event count (R50; logs 2, 3). -/
def SameEnvironment (s t : State) : Prop :=
  t.tx = s.tx ∧ t.rx = s.rx ∧ t.agenda = s.agenda ∧ t.tick = s.tick

theorem CommandEffect.sameEnvironment {i : Instr} {s t : State} (h : CommandEffect i s t) : SameEnvironment s t := by
  cases h with
  | clear | decode | reserved => exact ⟨rfl, rfl, rfl, rfl⟩
  | encode p =>
    obtain ⟨_, -, ⟨-, e⟩ | ⟨-, -, -, e⟩ | ⟨-, -, e⟩⟩ := State.acceptEncode_cases p s <;>
      exact e ▸ ⟨rfl, rfl, rfl, rfl⟩

theorem StoreEffect.sameEnvironment {s t : State} (h : StoreEffect s t) : SameEnvironment s t := by
  cases h <;> exact ⟨rfl, rfl, rfl, rfl⟩

theorem State.guardedWrite_sameEnvironment {s t : State} (h : SameEnvironment s t) :
    SameEnvironment s (s.guardedWrite t) := by
  obtain ⟨-, e⟩ | ⟨-, e⟩ := State.guardedWrite_cases s t
  · rwa [e]
  · exact e ▸ ⟨rfl, rfl, rfl, rfl⟩

/-- Settles O53: no effect of any of the four kinds of access reaches the environment's side. -/
theorem hostAccessTouchesNoStream : Obligations.HostAccessTouchesNoStream := by
  intro i s t h
  cases exec_cases h with
  | read | ignored => exact ⟨rfl, rfl, rfl, rfl⟩
  | command _ _ _ heffect => exact State.guardedWrite_sameEnvironment heffect.sameEnvironment
  | store _ _ _ heffect => exact State.guardedWrite_sameEnvironment heffect.sameEnvironment

/-- `STATUS`, `PHASE` and `IDX` are the same. -/
def SameSequencer (s t : State) : Prop :=
  t.statusByte = s.statusByte ∧ t.phase = s.phase ∧ t.idx = s.idx

theorem StoreEffect.sameSequencer {s t : State} (h : StoreEffect s t) : SameSequencer s t := by
  cases h <;> exact ⟨rfl, rfl, rfl⟩

/-- Every access but a write to `CTRL` leaves the sequencer and `STATUS` (R28, R33; while busy, log 5). -/
theorem exec_sameSequencer {i : Instr} {s t : State}
    (hi : wordAddress (encode i) ≠ 0x00 ∨ wordIsWrite (encode i) = false) (h : exec i s = .next t) :
    SameSequencer s t := by
  cases exec_cases h with
  | read | ignored => exact ⟨rfl, rfl, rfl⟩
  | command hwrite hctrl => simp [hwrite, hctrl] at hi
  | store _ _ _ heffect =>
    obtain ⟨-, e⟩ | ⟨-, e⟩ := State.guardedWrite_cases s _
    · rw [e]
      exact heffect.sameSequencer
    · exact e ▸ ⟨rfl, rfl, rfl⟩

/-- A word and the word of its instruction agree in `W` and `A` (R70). -/
theorem encode_decode_fields (w : HostWord) :
    wordIsWrite (encode (decode w)) = wordIsWrite w ∧ wordAddress (encode (decode w)) = wordAddress w := by
  rw [encodeOfDecode w]
  split
  · exact ⟨rfl, rfl⟩
  · rename_i hw
    simpa using hw

/-- An acceptance where no byte is presented does nothing (R56). -/
theorem State.txAccept_of_none {s : State} (h : s.txReg = none) : s.txAccept = s := by
  simp [State.txAccept, h]

/-- An end of stream outside the `DEC_*` phases does nothing (R57). -/
theorem State.rxEos_of_not_ready {s : State} (h : s.rxReady = false) : s.rxEos = s := by
  simp [State.rxEos, h]

/-- A producer with nothing to offer changes nothing (R238). -/
theorem State.rxOffer_of_empty {s : State} (h : s.rx = []) : s.rxOffer = s := by
  simp [State.rxOffer, h]

/-- A block that is not ready does nothing with an offered event; what is left with the producer may differ (R57). -/
theorem State.rxOffer_of_not_ready {s : State} (h : s.rxReady = false) : ∃ rx, s.rxOffer = { s with rx := rx } := by
  obtain ⟨-, e⟩ | ⟨b, rest, -, -, e⟩ | ⟨b, rest, -, ready, -⟩ | ⟨rest, -, e⟩ := State.rxOffer_cases s
  · exact ⟨s.rx, e⟩
  · exact ⟨s.rx, e⟩
  · simp [h] at ready
  · exact ⟨rest, e.trans (State.rxEos_of_not_ready (s := { s with rx := rest }) h)⟩

/-- Settles O51: an access off `CTRL` by `exec_sameSequencer`, and a stream event that the block does not take leaves
the sequencer alone. -/
theorem onlyCommandsStreamStepsAndResetChangeStatus :
    Obligations.OnlyCommandsStreamStepsAndResetChangeStatus := by
  refine ⟨fun i s t hi h => exec_sameSequencer hi h, fun s t h => ?_⟩
  obtain ⟨-, rfl⟩ | ⟨rest, taken, rfl, ⟨w, ha, he⟩ | ⟨ha, rfl⟩ | ⟨ha, rfl⟩ | ha⟩ := step_cases h
  · exact .inl ⟨rfl, rfl, rfl⟩
  · obtain ⟨hwrite, haddress⟩ := encode_decode_fields w
    by_cases hcommand : wordIsWrite w = true ∧ wordAddress w = 0x00
    · exact .inr ⟨rest, .inl ⟨w, ha, hcommand⟩⟩
    · refine .inl (exec_sameSequencer (s := { s with agenda := rest, tick := s.tick + 1 }) ?_ he)
      rw [hwrite, haddress, ← Bool.not_eq_true]
      tauto
  · by_cases hr : s.txReg = none
    · have e := State.txAccept_of_none (s := { s with agenda := rest, tick := s.tick + 1 }) hr
      rw [e]
      exact .inl ⟨rfl, rfl, rfl⟩
    · exact .inr ⟨rest, .inr (.inl ⟨ha, hr⟩)⟩
  · by_cases hrx : s.rx = []
    · rw [State.rxOffer_of_empty (s := { s with agenda := rest, tick := s.tick + 1 }) hrx]
      exact .inl ⟨rfl, rfl, rfl⟩
    · by_cases hready : s.rxReady = true
      · exact .inr ⟨rest, .inr (.inr (.inl ⟨ha, hready, hrx⟩))⟩
      · obtain ⟨rx, e⟩ := State.rxOffer_of_not_ready (s := { s with agenda := rest, tick := s.tick + 1 })
          (Bool.eq_false_iff.2 hready)
        rw [e]
        exact .inl ⟨rfl, rfl, rfl⟩
  · exact .inr ⟨rest, .inr (.inr (.inr ha.1))⟩

end Sys2Proof.Machine
end

section
/-! PROOF. The Checksum-8 unit: `CKBYTE` (R103, R104), a stream of bytes through it, and the laws of `ck8` (R101,
R106). -/

namespace Sys2Proof.Machine

/-! ## CKBYTE -/

/-- The register's subtraction is the spec's `(a − d) mod 256` (R103). -/
theorem sub_eq_ofNat_mod (a d : Byte) : a - d = BitVec.ofNat 8 ((a.toNat + 256 - d.toNat) % 256) := by
  apply BitVec.eq_of_toNat_eq
  rw [BitVec.toNat_sub, BitVec.toNat_ofNat]
  have := d.isLt
  omega

/-- An `UNSPEC` accumulator stays `UNSPEC` (R103). -/
theorem State.subtract_of_unspec {s : State} (r : Reg) (h : s.acc = .unspec) : s.subtract r = s := by
  rw [State.subtract, h, Reg.unspec_minus, ← h]

/-- Settles O9: while idle the access is the subtraction, of a defined or of an `UNSPEC` accumulator. -/
theorem ckbyteSubtracts : Obligations.CkbyteSubtracts := by
  intro s d hp
  rw [exec_ckbyte_idle d hp]
  refine ⟨fun a ha => ?_, fun ha => by rw [State.subtract_of_unspec _ ha]⟩
  rw [State.subtract_val ha, sub_eq_ofNat_mod]

/-! ## A stream of bytes -/

section

variable {s : State} {a : Byte} {rest : List Event}

theorem exec_ckclr_idle (hp : s.phase = .idle) :
    exec .ckclr s = .next { s with acc := .val 0x00, idx := 0, ok := true, fail := false, err := 0 } := by
  rw [exec_ckclr, State.guardedWrite_idle _ hp]
  exact congrArg Host.Outcome.next (State.completeOk_of_idle hp)

theorem step_ckclr_idle (hp : s.phase = .idle) (ha : s.agenda = .host (encode .ckclr) :: rest) :
    step s = .next { s with
      acc := .val 0x00, idx := 0, ok := true, fail := false, err := 0, agenda := rest, tick := s.tick + 1 } := by
  rw [step_cons ha, performEvent, decodeOfEncode _ rfl]
  exact exec_ckclr_idle hp

theorem step_ckbyte_idle (d : Byte) (hp : s.phase = .idle) (hacc : s.acc = .val a)
    (ha : s.agenda = .host (encode (.ckbyte d)) :: rest) :
    step s = .next { s with acc := .val (a - d), agenda := rest, tick := s.tick + 1 } := by
  rw [step_cons ha, performEvent, decodeOfEncode _ rfl]
  exact Eq.trans (exec_ckbyte_idle d hp) (congrArg Host.Outcome.next (State.subtract_val hacc))

/-- A run of `CKBYTE`s takes each byte off the accumulator. -/
theorem run_ckbyte (bytes : List Byte) (hp : s.phase = .idle) (hacc : s.acc = .val a)
    (ha : s.agenda = bytes.map (fun d => Event.host (encode (.ckbyte d))) ++ rest) :
    Host.Core.run Sys2Proof.core bytes.length s = .next { s with
      acc := .val (a + ck8 bytes), agenda := rest, tick := s.tick + bytes.length } := by
  induction bytes generalizing s a with
  | nil =>
    have nothing_sent : s.agenda = rest := ha
    subst nothing_sent
    simp [run_zero, ← hacc]
  | cons b bytes ih =>
    have acc_sum : a - b + ck8 bytes = a + (ck8 bytes - b) := by abel
    have tick_sum : s.tick + 1 + bytes.length = s.tick + (bytes.length + 1) := by omega
    refine Eq.trans (run_succ bytes.length (step_ckbyte_idle b hp hacc ha)) (Eq.trans (ih hp rfl rfl) ?_)
    simp only [ck8_cons, acc_sum, tick_sum, List.length_cons]

/-- `CKCLR`, then `CKBYTE` of each byte. -/
theorem run_ckclr_ckbyte (bytes : List Byte) (hp : s.phase = .idle)
    (ha : s.agenda = .host (encode .ckclr) ::
      (bytes.map (fun d => Event.host (encode (.ckbyte d))) ++ rest)) :
    Host.Core.run Sys2Proof.core (1 + bytes.length) s = .next { s with
      acc := .val (ck8 bytes), idx := 0, ok := true, fail := false, err := 0, agenda := rest,
      tick := s.tick + (1 + bytes.length) } := by
  rw [Nat.add_comm 1]
  refine Eq.trans (run_succ bytes.length (step_ckclr_idle hp ha)) (Eq.trans (run_ckbyte bytes hp rfl rfl) ?_)
  have acc_sum : (0x00 : Byte) + ck8 bytes = ck8 bytes := zero_add _
  have tick_sum : s.tick + 1 + bytes.length = s.tick + (bytes.length + 1) := by omega
  simp only [acc_sum, tick_sum]

/-- Idle with `OK` alone reads 0x02 (R171). -/
theorem State.statusByte_of_ok (hp : s.phase = .idle) (hok : s.ok = true) (hfail : s.fail = false)
    (herr : s.err = 0) : s.statusByte = 0x02 := by
  simp [State.statusByte, State.busy_eq_false hp, hok, hfail, herr]

end

/-- Settles O10: `run_ckclr_ckbyte`, for the bytes and for the bytes with their checksum, whose own checksum is 0. -/
theorem byteStreamComputesChecksum : Obligations.ByteStreamComputesChecksum := by
  intro s bytes rest hp hagenda
  have checksum_left := run_ckclr_ckbyte bytes hp hagenda
  have zero_left := run_ckclr_ckbyte (rest := rest) (bytes ++ [ck8 bytes]) hp (by simp [hagenda])
  rw [ck8_concat_ck8, show 1 + (bytes ++ [ck8 bytes]).length = 2 + bytes.length by simp; omega] at zero_left
  exact ⟨⟨_, checksum_left, rfl, State.statusByte_of_ok hp rfl rfl rfl⟩, ⟨_, zero_left, rfl⟩⟩

/-! ## Laws of the checksum -/

/-- Equal sums have equal checksums. -/
theorem ck8_congr {s t : List Byte} (h : byteSum s = byteSum t) : ck8 s = ck8 t := by
  rw [ck8, ck8, h]

/-- Settles O12: the sum does not depend on the order. -/
theorem checksumIgnoresOrder : Obligations.ChecksumIgnoresOrder :=
  fun _ _ h => ck8_congr (h.map BitVec.toNat).sum_eq

/-- A covered byte, wherever it stands, takes itself off the checksum of the others. -/
theorem ck8_append_cons (before after : List Byte) (b : Byte) :
    ck8 (before ++ b :: after) = ck8 (before ++ after) - b := by
  rw [← ck8_cons]
  exact checksumIgnoresOrder _ _ List.perm_middle

/-- Flipping a bit changes the byte. -/
theorem xor_bit_ne (b : Byte) {k : Nat} (hk : k < 8) : b ^^^ (1#8 <<< k) ≠ b := by
  intro h
  have bit := congrArg (fun x : Byte => x.getLsbD k) h
  simp [hk] at bit

/-- Settles O14: a changed byte, covered or the checksum itself, changes its side of the test alone. -/
theorem singleBitFlipDetected : Obligations.SingleBitFlipDetected := by
  intro before after b c k hk
  refine ⟨fun h => ?_, fun h => h ▸ xor_bit_ne c hk⟩
  rw [ck8_append_cons, ck8_append_cons] at h
  exact xor_bit_ne b hk (sub_right_injective h).symm

end Sys2Proof.Machine
end

section
/-! PROOF. The acceptance of `ENC` and `ENC.P` (spec/41_frame_encode.md R120 to R122; spec/60_exceptions.md R203), and
the one outcome of every command (R207). -/

namespace Sys2Proof.Machine

open Sys2Proof.Safety

section

variable {s : State} {len : Byte}

/-- While idle, `ENC` and `ENC.P` are the acceptance with their bit `P`, which is 0 for `ENC` alone. -/
theorem exec_encode_idle {i : Instr} (hi : i = .enc ∨ i = .encP) (hp : s.phase = .idle) :
    ∃ p, exec i s = .next (s.acceptEncode p) ∧ (p = false → i = .enc) := by
  obtain rfl | rfl := hi
  · exact ⟨false, congrArg Host.Outcome.next (State.guardedWrite_idle _ hp), fun _ => rfl⟩
  · exact ⟨true, congrArg Host.Outcome.next (State.guardedWrite_idle _ hp), nofun⟩

theorem exec_enc_idle (hp : s.phase = .idle) : exec .enc s = .next (s.acceptEncode false) :=
  congrArg Host.Outcome.next (State.guardedWrite_idle _ hp)

theorem exec_encP_idle (hp : s.phase = .idle) : exec .encP s = .next (s.acceptEncode true) :=
  congrArg Host.Outcome.next (State.guardedWrite_idle _ hp)

/-- The failure of an encode at its acceptance: `HDR[0]` is its old value or the marker, and no other output is given up
(R121, R205). -/
theorem State.encodeFail_of_idle (c : Cause) (hp : s.phase = .idle) :
    ∃ start, (start = s.hdr.start ∨ start = .val Config.startMarker) ∧
      s.acceptCommand.encodeFail c =
        { s with hdr := { s.hdr with start := start }, idx := 0, ok := false, fail := true, err := c.code } := by
  refine ⟨if Config.drawChoice s.tick then .val Config.startMarker else s.hdr.start, ?_, ?_⟩
  · split
    · exact .inr rfl
    · exact .inl rfl
  · rw [State.encodeFail, State.completeFail, ← hp]
    rfl

/-- A length above 120 fails with `LENGTH`, whatever `P` is (R120, R203). -/
theorem State.acceptEncode_of_long (p : Bool) (hl : s.hdr.length = .val len) (hlong : Config.maxPayload < len.toNat) :
    s.acceptEncode p = s.acceptCommand.encodeFail .length := by
  obtain ⟨l, hl', ⟨-, e⟩ | ⟨-, short, -⟩ | ⟨short, -⟩⟩ := State.acceptEncode_cases p s
  · exact e
  · exact absurd hlong (by rw [← hl' _ hl]; omega)
  · exact absurd hlong (by rw [← hl' _ hl]; omega)

/-- A legal length that is not 0 fails with `NOPAYLOAD` where `P` is 0 (R120, R122). -/
theorem State.acceptEncode_of_no_payload (hl : s.hdr.length = .val len) (hpos : 0 < len.toNat)
    (hshort : len.toNat ≤ Config.maxPayload) : s.acceptEncode false = s.acceptCommand.encodeFail .noPayload := by
  obtain ⟨l, hl', ⟨long, -⟩ | ⟨-, -, -, e⟩ | ⟨-, needs, -⟩⟩ := State.acceptEncode_cases false s
  · exact absurd hshort (by rw [← hl' _ hl]; omega)
  · exact e
  · exact absurd (needs (by rwa [hl' _ hl])) (by decide)

/-- A legal length starts the encode where `P` is 1 or the length is 0 (R120). -/
theorem State.acceptEncode_of_legal {p : Bool} (hl : s.hdr.length = .val len) (hshort : len.toNat ≤ Config.maxPayload)
    (hp : p = true ∨ len = 0) : s.acceptEncode p = s.acceptCommand.startEncode := by
  obtain ⟨l, hl', ⟨long, -⟩ | ⟨hpos, -, hp', -⟩ | ⟨-, -, e⟩⟩ := State.acceptEncode_cases p s
  · exact absurd hshort (by rw [← hl' _ hl]; omega)
  · rw [hl' _ hl] at hpos
    simp_all
  · exact e

end

/-- Settles O15: both checks pass, so the acceptance is `startEncode`, which runs with cleared flags. -/
theorem encodeStarts : Obligations.EncodeStarts := by
  intro s len hp hl hshort
  refine ⟨?_, fun h0 => ?_, State.statusByte_of_running (by simp) rfl rfl rfl⟩
  · rw [exec_encP_idle hp, State.acceptEncode_of_legal hl hshort (.inl rfl)]
    rfl
  · rw [exec_enc_idle hp, State.acceptEncode_of_legal hl hshort (.inr h0)]
    rfl

/-- Settles O16: the length check comes first, with either bit `P`. -/
theorem encodeLengthFailure : Obligations.EncodeLengthFailure := by
  intro s len hp hl hlong i hi
  obtain ⟨p, hexec, -⟩ := exec_encode_idle hi hp
  obtain ⟨start, hstart, e⟩ := State.encodeFail_of_idle .length hp
  exact ⟨start, hstart, by rw [hexec, State.acceptEncode_of_long p hl hlong, e]; rfl⟩

/-- Settles O17: the length is legal and not 0, and `P` is 0. -/
theorem encodeNoPayloadFailure : Obligations.EncodeNoPayloadFailure := by
  intro s len hp hl hpos hshort
  obtain ⟨start, hstart, e⟩ := State.encodeFail_of_idle .noPayload hp
  exact ⟨start, hstart, by rw [exec_enc_idle hp, State.acceptEncode_of_no_payload hl hpos hshort, e]; rfl⟩

/-- Settles O18: the free byte that the acceptance sees leads to one of the three outcomes, and `NOPAYLOAD` needs
`P = 0`. -/
theorem encodeOnUnspecLength : Obligations.EncodeOnUnspecLength := by
  intro s hp _ i hi
  obtain ⟨p, hexec, hbit⟩ := exec_encode_idle hi hp
  obtain ⟨_, -, ⟨-, e⟩ | ⟨-, -, rfl, e⟩ | ⟨-, -, e⟩⟩ := State.acceptEncode_cases p s
  · obtain ⟨start, hstart, e'⟩ := State.encodeFail_of_idle .length hp
    exact ⟨_, start, hexec, hstart, .inr (.inl (e.trans e'))⟩
  · obtain ⟨start, hstart, e'⟩ := State.encodeFail_of_idle .noPayload hp
    exact ⟨_, start, hexec, hstart, .inr (.inr ⟨hbit rfl, e.trans e'⟩)⟩
  · exact ⟨_, s.hdr.start, hexec, .inl rfl, .inl e⟩

/-- Exactly one of `BUSY`, `OK` and `FAIL`, and no code without `FAIL` (R207). -/
def OneOutcome (t : State) : Prop :=
  (t.busy, t.ok, t.fail) ∈ [(true, false, false), (false, true, false), (false, false, true)] ∧
    (t.fail = false → t.err = 0)

theorem CommandEffect.oneOutcome {i : Instr} {s t : State} (h : CommandEffect i s t) : OneOutcome t := by
  cases h with
  | clear => simp [OneOutcome, State.busy]
  | decode => simp [OneOutcome, State.busy]
  | reserved => simp [OneOutcome, State.busy]
  | encode p =>
    obtain ⟨_, -, ⟨-, e⟩ | ⟨-, -, -, e⟩ | ⟨-, -, e⟩⟩ := State.acceptEncode_cases p s
    · simp [OneOutcome, State.busy, e]
    · simp [OneOutcome, State.busy, e]
    · simp [OneOutcome, State.busy, e]

/-- The five commands are the writes to `CTRL` (R72, R74). -/
theorem command_fields {i : Instr} (hi : i = .ckclr ∨ i = .enc ∨ i = .encP ∨ i = .dec ∨ (∃ d, i = .ctrlRsvd d)) :
    wordIsWrite (encode i) = true ∧ wordAddress (encode i) = 0x00 ∧ isGuardedWrite i = true := by
  obtain rfl | rfl | rfl | rfl | ⟨d, rfl⟩ := hi <;>
    exact ⟨wordIsWrite_hostWord _ _ _, wordAddress_hostWord _ _ _, rfl⟩

/-- Settles O52: while idle the answer is the command's effect, and each effect has one outcome. -/
theorem commandEndsInOneOutcome : Obligations.CommandEndsInOneOutcome := by
  intro i s t hi hp h
  obtain ⟨hwrite, hctrl, hguard⟩ := command_fields hi
  cases exec_cases h with
  | read _ hread => simp [hwrite] at hread
  | ignored _ hfree => simp [hguard] at hfree
  | store _ hoff => exact absurd hctrl hoff
  | command _ _ _ heffect =>
    rw [State.guardedWrite_idle _ hp]
    exact heffect.oneOutcome

end Sys2Proof.Machine
end

section
/-! PROOF. An acceptance where nothing defined is presented: no byte outside the `ENC_*` phases (R56), and an `UNSPEC`
byte or accumulator (R30, R124 to R127). -/

namespace Sys2Proof.Machine

/-- Settles O23: no byte is presented, so the acceptance does nothing. -/
theorem txNotEnabledOutsideEncode : Obligations.TxNotEnabledOutsideEncode := by
  intro s rest hagenda hhdr hpay hck
  have none_presented : s.txReg = none := by
    cases hp : s.phase <;> simp_all [State.txReg]
  rw [step_cons hagenda]
  exact congrArg Host.Outcome.next
    (State.txAccept_of_none (s := { s with agenda := rest, tick := s.tick + 1 }) none_presented)

/-- An `UNSPEC` operand on either side leaves `UNSPEC` (R30 case 2). -/
theorem Reg.minus_eq_unspec {a r : Reg} (h : r = .unspec ∨ a = .unspec) : a.minus r = .unspec := by
  obtain rfl | rfl := h
  · exact Reg.minus_unspec a
  · exact Reg.unspec_minus r

section

variable {s : State} {r : Reg}

/-- A header byte that spoils `ACC`: below byte 5 the next one follows; after it the checksum or the payload, and a
defined length decides which (R125). -/
theorem State.afterTx_encHdr_unspec (hp : s.phase = .encHdr) (hr : s.acc.minus r = .unspec) :
    ∃ phase idx, (s.idx.toNat < 5 → phase = .encHdr ∧ idx = s.idx + 1) ∧
      (5 ≤ s.idx.toNat → idx = 0 ∧ (phase = .encCk ∨ phase = .encPay) ∧
        ∀ len, s.hdr.length = .val len → phase = if len = 0 then .encCk else .encPay) ∧
      s.afterTx r = { s with acc := .unspec, idx := idx, phase := phase } := by
  have no_payload (len : Byte) (hl : s.hdr.length = .val len) : s.sequenceLength = 0 ↔ len = 0 := by
    rw [State.sequenceLength_val hl, ← BitVec.toNat_inj]
    rfl
  rw [State.afterTx_encHdr _ hp, State.subtract, hr, ← hp, State.afterTxHdr]
  by_cases hi : s.idx.toNat < 5
  · exact ⟨_, _, fun _ => ⟨rfl, rfl⟩, fun h => by omega, if_pos hi⟩
  · rw [if_neg hi]
    by_cases h0 : s.sequenceLength = 0
    · exact ⟨_, _, fun h => absurd h hi,
        fun _ => ⟨rfl, .inl rfl, fun len hl => (if_pos ((no_payload len hl).1 h0)).symm⟩, if_pos h0⟩
    · exact ⟨_, _, fun h => absurd h hi,
        fun _ => ⟨rfl, .inr rfl, fun len hl => (if_neg (mt (no_payload len hl).2 h0)).symm⟩, if_neg h0⟩

/-- A payload byte that spoils `ACC`: the next one or the checksum follows, and a defined length decides which
(R126). -/
theorem State.afterTx_encPay_unspec (hp : s.phase = .encPay) (hr : s.acc.minus r = .unspec) :
    ∃ phase idx, ((phase = .encPay ∧ idx = s.idx + 1) ∨ (phase = .encCk ∧ idx = 0)) ∧
      (∀ len, s.hdr.length = .val len → (phase = .encPay ↔ s.idx.toNat < len.toNat - 1)) ∧
      s.afterTx r = { s with acc := .unspec, idx := idx, phase := phase } := by
  have more_follow (len : Byte) (hl : s.hdr.length = .val len) :
      s.idx.toNat + 1 < s.sequenceLength ↔ s.idx.toNat < len.toNat - 1 := by
    rw [State.sequenceLength_val hl]
    omega
  rw [State.afterTx_encPay _ hp, State.subtract, hr, ← hp, State.afterTxPay]
  by_cases hmore : s.idx.toNat + 1 < s.sequenceLength
  · exact ⟨_, _, .inl ⟨rfl, rfl⟩, fun len hl => iff_of_true rfl ((more_follow len hl).1 hmore), if_pos hmore⟩
  · exact ⟨_, _, .inr ⟨rfl, rfl⟩,
      fun len hl => iff_of_false (by rw [hp]; decide) (mt (more_follow len hl).2 hmore), if_neg hmore⟩

/-- The checksum byte, `UNSPEC` or not, completes with `OK`, and `ACC` stays (R127). -/
theorem State.afterTx_encCk_unspec (hp : s.phase = .encCk) (hacc : s.acc = .unspec) :
    s.afterTx r = { s with acc := .unspec, phase := .idle, idx := 0, ok := true, fail := false, err := 0 } := by
  rw [State.afterTx_encCk _ hp, ← hacc]
  rfl

end

/-- Settles O22, by phase: the byte is the presented register's value, the subtraction leaves `UNSPEC`, and the lemma of
the phase says where the sequencer goes. -/
theorem txUnspecByte : Obligations.TxUnspecByte := by
  intro s r rest hagenda hr hunspec
  have accepted := step_txAccept hagenda hr
  have own_byte (x : Byte) (hx : r = .val x) : r.value (Config.drawByte (s.tick + 1)) = x := by rw [hx, Reg.value_val]
  have spoiled : s.acc.minus r = .unspec := Reg.minus_eq_unspec hunspec
  generalize r.value (Config.drawByte (s.tick + 1)) = b at accepted own_byte
  cases hp : s.phase with
  | encHdr =>
    obtain ⟨phase, idx, hbelow, hlast, e⟩ := State.afterTx_encHdr_unspec
      (s := { s with tx := s.tx ++ [b], agenda := rest, tick := s.tick + 1 }) hp spoiled
    rw [e] at accepted
    exact ⟨b, _, accepted, own_byte, rfl, fun _ => ⟨rfl, rfl, rfl, hbelow, hlast⟩, nofun, nofun⟩
  | encPay =>
    obtain ⟨phase, idx, hway, hlen, e⟩ := State.afterTx_encPay_unspec
      (s := { s with tx := s.tx ++ [b], agenda := rest, tick := s.tick + 1 }) hp spoiled
    rw [e] at accepted
    exact ⟨b, _, accepted, own_byte, rfl, nofun, fun _ => ⟨rfl, rfl, rfl, hway, fun len hl _ => hlen len hl⟩, nofun⟩
  | encCk =>
    have presented : r = s.acc := by rw [State.txReg_encCk hp] at hr; exact (Option.some.inj hr).symm
    have acc_unspec : s.acc = .unspec := by simpa [presented] using hunspec
    rw [State.afterTx_encCk_unspec
      (s := { s with tx := s.tx ++ [b], agenda := rest, tick := s.tick + 1 }) hp acc_unspec] at accepted
    exact ⟨b, _, accepted, own_byte, rfl, nofun, nofun, fun _ => ⟨rfl, rfl, State.statusByte_of_ok rfl rfl rfl rfl⟩⟩
  | idle | decHdr | decOfs | decPay | decCk => simp [State.txReg, hp] at hr

end Sys2Proof.Machine
end

section
/-! PROOF. A whole encode: from a loaded machine the covered bytes leave one by one, then their checksum
(spec/41_frame_encode.md R123 to R129). -/

namespace Sys2Proof.Machine

open Sys2Proof.Safety

/-- The phase in which byte `k` of a frame with `L` body bytes is presented (R124). -/
def sendPhase (L k : Nat) : Phase :=
  if k < 6 then .encHdr else if k < 6 + L then .encPay else .encCk

/-- `IDX` in that phase. -/
def sendIdx (L k : Nat) : BitVec 7 :=
  BitVec.ofNat 7 (if k < 6 then k else if k < 6 + L then k - 6 else 0)

/-- The machine once the command has been accepted and `k` of the `6 + L` covered bytes have left. -/
def State.sending (s : State) (L : Nat) (bytes : List Byte) (k : Nat) (agenda : List Event) : State :=
  { s with
    phase := sendPhase L k, idx := sendIdx L k, ok := false, fail := false, err := 0,
    hdr := { s.hdr with start := .val Config.startMarker },
    acc := .val (ck8 (bytes.take k)), tx := s.tx ++ bytes.take k, agenda := agenda, tick := s.tick + (1 + k) }

/-! ## The sequencer's position -/

section

variable {L k : Nat}

theorem sendPhase_hdr (h : k < 6) : sendPhase L k = .encHdr := if_pos h

theorem sendPhase_pay (h : 6 ≤ k) (h' : k < 6 + L) : sendPhase L k = .encPay := by
  rw [sendPhase, if_neg (by omega), if_pos h']

theorem sendPhase_ck (L : Nat) : sendPhase L (6 + L) = .encCk := by
  rw [sendPhase, if_neg (by omega), if_neg (by omega)]

theorem sendPhase_ne_idle (L k : Nat) : sendPhase L k ≠ .idle := by
  unfold sendPhase
  split_ifs <;> decide

theorem sendIdx_hdr (h : k < 6) : (sendIdx L k).toNat = k := by
  rw [sendIdx, if_pos h, BitVec.toNat_ofNat]
  omega

theorem sendIdx_pay (hL : L ≤ Config.maxPayload) (h : 6 ≤ k) (h' : k < 6 + L) : (sendIdx L k).toNat = k - 6 := by
  simp only [Config.maxPayload] at hL
  rw [sendIdx, if_neg (by omega), if_pos h', BitVec.toNat_ofNat]
  omega

theorem sendPhase_succ_hdr (h : k < 6) :
    sendPhase L (k + 1) = if k < 5 then .encHdr else if L = 0 then .encCk else .encPay := by
  by_cases h5 : k < 5
  · rw [if_pos h5, sendPhase_hdr (by omega)]
  · obtain rfl : k = 5 := by omega
    by_cases h0 : L = 0
    · subst h0
      rfl
    · rw [if_neg h5, if_neg h0, sendPhase_pay le_rfl (by omega)]

theorem sendPhase_succ_pay (h : 6 ≤ k) (h' : k < 6 + L) :
    sendPhase L (k + 1) = if k - 6 < L - 1 then .encPay else .encCk := by
  by_cases hmore : k - 6 < L - 1
  · rw [if_pos hmore, sendPhase_pay (by omega) (by omega)]
  · rw [if_neg hmore, show k + 1 = 6 + L by omega, sendPhase_ck]

theorem sendIdx_succ_hdr (h : k < 6) : sendIdx L (k + 1) = if k < 5 then sendIdx L k + 1 else 0 := by
  by_cases h5 : k < 5
  · rw [if_pos h5, sendIdx, sendIdx, if_pos h, if_pos (by omega), BitVec.ofNat_add]
    rfl
  · obtain rfl : k = 5 := by omega
    simp [sendIdx]

theorem sendIdx_succ_pay (h : 6 ≤ k) (h' : k < 6 + L) :
    sendIdx L (k + 1) = if k - 6 < L - 1 then sendIdx L k + 1 else 0 := by
  rw [sendIdx, if_neg (by omega)]
  by_cases hmore : k - 6 < L - 1
  · rw [if_pos hmore, if_pos (by omega), sendIdx, if_neg (by omega), if_pos h', show k + 1 - 6 = k - 6 + 1 by omega,
      BitVec.ofNat_add]
    rfl
  · rw [if_neg hmore, if_neg (by omega)]
    rfl

end

/-! ## The covered bytes -/

theorem covered_length (device address command item : Byte) (body : List Byte) :
    (covered device address command item body).length = 6 + body.length := by
  rw [covered, List.length_append]
  rfl

/-- After the header's six bytes the body follows. -/
theorem covered_body {device address command item : Byte} {body : List Byte} {k : Nat} (h : 6 ≤ k)
    (h' : k < (covered device address command item body).length) :
    (covered device address command item body)[k] = body[k - 6]'(by rw [covered_length] at h'; omega) :=
  List.getElem_append_right h

/-- One byte more leaves: it is taken off the checksum and joins the bytes sent, and the sequencer is one position
further. -/
theorem State.sending_succ {bytes : List Byte} {k : Nat} (s : State) (L : Nat) (e : Event) (rest : List Event)
    (hk : k < bytes.length) :
    ({ s.sending L bytes k (e :: rest) with
        acc := .val (ck8 (bytes.take k) - bytes[k]), tx := s.tx ++ bytes.take k ++ [bytes[k]], agenda := rest,
        tick := s.tick + (1 + k) + 1, idx := sendIdx L (k + 1), phase := sendPhase L (k + 1) } : State) =
      s.sending L bytes (k + 1) rest := by
  have sent : bytes.take (k + 1) = bytes.take k ++ [bytes[k]] := by rw [List.take_append_getElem hk]
  simp only [State.sending, sent, ck8_concat, List.append_assoc, Nat.add_assoc]

/-! ## Steps and runs -/

section

variable {s : State} {device address command item : Byte} {body : List Byte} {rest : List Event} {k : Nat}

/-- A legal body length is its byte. -/
theorem length_byte_toNat (h : body.length ≤ Config.maxPayload) : (BitVec.ofNat 8 body.length).toNat = body.length := by
  rw [BitVec.toNat_ofNat, Nat.mod_eq_of_lt]
  exact Nat.lt_of_le_of_lt h (by decide)

theorem length_byte_eq_zero (h : body.length ≤ Config.maxPayload) :
    BitVec.ofNat 8 body.length = 0 ↔ body.length = 0 := by
  rw [← BitVec.toNat_inj, length_byte_toNat h]
  rfl

/-- The accepted encode command (R120). -/
theorem step_startEncode {w : HostWord} (hload : Loaded s device address command item body) (hw : StartsEncode w body)
    (ha : s.agenda = .host w :: rest) :
    step s = .next (s.sending body.length (covered device address command item body) 0 rest) := by
  have legal : (BitVec.ofNat 8 body.length).toNat ≤ Config.maxPayload := by
    rw [length_byte_toNat hload.short]
    exact hload.short
  obtain ⟨with_payload, without_payload, -⟩ :=
    encodeStarts { s with agenda := rest, tick := s.tick + 1 } _ hload.idle hload.length legal
  rw [step_cons ha, performEvent, State.sending, List.take_zero, List.append_nil]
  obtain hw | ⟨hw, rfl⟩ := hw
  · rw [hw]
    exact with_payload
  · rw [hw]
    exact without_payload rfl

/-- While header bytes leave, byte `k` is presented. -/
theorem sending_hdr (hload : Loaded s device address command item body) (hk : k < 6)
    (hk' : k < (covered device address command item body).length) :
    Header.get { s.hdr with start := .val Config.startMarker } (hdrFieldOf k) =
      .val (covered device address command item body)[k] := by
  interval_cases k
  · rfl
  · exact hload.device
  · exact hload.address
  · exact hload.command
  · exact hload.item
  · exact hload.length

/-- A header byte leaves (R125). -/
theorem step_sending_hdr (hload : Loaded s device address command item body) (hk : k < 6) :
    step (s.sending body.length (covered device address command item body) k (.txAccept :: rest)) =
      .next (s.sending body.length (covered device address command item body) (k + 1) rest) := by
  have hk' : k < (covered device address command item body).length := by rw [covered_length]; omega
  have idx_eq : (State.sending s body.length (covered device address command item body) k
      (.txAccept :: rest)).idx.toNat = k := sendIdx_hdr hk
  refine Eq.trans (txHeaderByte _ (ck8 ((covered device address command item body).take k)) _ _ rest rfl
    (sendPhase_hdr hk) (by rw [idx_eq]; omega) rfl (by rw [idx_eq]; exact sending_hdr hload hk hk') hload.length) ?_
  rw [← State.sending_succ s _ .txAccept rest hk', idx_eq, sendPhase_succ_hdr hk, sendIdx_succ_hdr hk]
  simp only [length_byte_eq_zero hload.short]
  rfl

/-- A payload byte leaves (R126). -/
theorem step_sending_pay (hload : Loaded s device address command item body) (hk : 6 ≤ k) (hk' : k < 6 + body.length) :
    step (s.sending body.length (covered device address command item body) k (.txAccept :: rest)) =
      .next (s.sending body.length (covered device address command item body) (k + 1) rest) := by
  have hlt : k < (covered device address command item body).length := by rwa [covered_length]
  have idx_eq : (State.sending s body.length (covered device address command item body) k
      (.txAccept :: rest)).idx.toNat = k - 6 := sendIdx_pay hload.short hk hk'
  refine Eq.trans (txPayloadByte _ (ck8 ((covered device address command item body).take k))
    (body[k - 6]'(by omega)) _ rest rfl (sendPhase_pay hk hk') rfl hload.length
    (by rw [idx_eq, length_byte_toNat hload.short]; omega)
    (by rw [idx_eq]; exact hload.payload (k - 6) (by omega))) ?_
  rw [← State.sending_succ s _ .txAccept rest hlt, idx_eq, sendPhase_succ_pay hk hk', sendIdx_succ_pay hk hk',
    covered_body hk hlt, length_byte_toNat hload.short]
  rfl

/-- A covered byte leaves. -/
theorem step_sending (hload : Loaded s device address command item body) (hk : k < 6 + body.length) :
    step (s.sending body.length (covered device address command item body) k (.txAccept :: rest)) =
      .next (s.sending body.length (covered device address command item body) (k + 1) rest) := by
  by_cases h6 : k < 6
  · exact step_sending_hdr hload h6
  · exact step_sending_pay hload (by omega) hk

/-- The first `k` covered bytes leave. -/
theorem run_sending (hload : Loaded s device address command item body) (hk : k ≤ 6 + body.length) :
    Host.Core.run Sys2Proof.core k
        (s.sending body.length (covered device address command item body) 0
          (List.replicate k .txAccept ++ rest)) =
      .next (s.sending body.length (covered device address command item body) k rest) := by
  induction k generalizing rest with
  | zero => rfl
  | succ k ih =>
    have more : List.replicate (k + 1) Event.txAccept ++ rest = List.replicate k .txAccept ++ .txAccept :: rest := by
      rw [List.replicate_succ', List.append_assoc]
      rfl
    rw [more]
    exact Eq.trans (run_add k 1 (ih (rest := .txAccept :: rest) (by omega))) (run_succ 0 (step_sending hload hk))

/-- The command, then the first `k` covered bytes. -/
theorem run_encode_sending {w : HostWord} (hload : Loaded s device address command item body)
    (hw : StartsEncode w body) (ha : s.agenda = .host w :: (List.replicate k .txAccept ++ rest))
    (hk : k ≤ 6 + body.length) :
    Host.Core.run Sys2Proof.core (1 + k) s =
      .next (s.sending body.length (covered device address command item body) k rest) := by
  rw [Nat.add_comm]
  exact Eq.trans (run_succ k (step_startEncode hload hw ha)) (run_sending hload hk)

/-- The checksum leaves, and the encode completes (R127). -/
theorem step_sending_ck :
    step (s.sending body.length (covered device address command item body) (6 + body.length)
        (.txAccept :: rest)) = .next { s with
      phase := .idle, idx := 0, ok := true, fail := false, err := 0,
      hdr := { s.hdr with start := .val Config.startMarker },
      acc := .val (ck8 (covered device address command item body)),
      tx := s.tx ++ frame device address command item body,
      agenda := rest, tick := s.tick + (1 + (6 + body.length + 1)) } := by
  have all_sent : (covered device address command item body).take (6 + body.length) =
      covered device address command item body := List.take_of_length_le (covered_length ..).le
  obtain ⟨t, hstep, -, rfl⟩ := txChecksumByte
    (s.sending body.length (covered device address command item body) (6 + body.length) (.txAccept :: rest))
    _ rest rfl (sendPhase_ck body.length) rfl
  rw [hstep]
  simp only [State.sending, all_sent, frame, List.append_assoc, Nat.add_assoc]

end

/-- Settles O24: the command and the covered bytes by `run_encode_sending`, then the checksum by `step_sending_ck`. -/
theorem encodeSendsFrame : Obligations.EncodeSendsFrame := by
  intro s device address command item body w rest hload hw hagenda
  rw [List.replicate_succ', List.append_assoc] at hagenda
  exact Eq.trans (run_add (1 + (6 + body.length)) 1 (run_encode_sending hload hw hagenda le_rfl))
    (run_succ 0 step_sending_ck)

/-- Settles O25: before the checksum leaves the machine is `sending`, which is busy and has sent `k` covered bytes. -/
theorem encodeBusyUntilLastByte : Obligations.EncodeBusyUntilLastByte := by
  intro s device address command item body w rest k hload hw hagenda hk
  refine ⟨_, run_encode_sending hload hw hagenda (by omega), ?_, ?_⟩
  · have all_covered : k ≤ (covered device address command item body).length := by rw [covered_length]; omega
    rw [frame, List.take_append_of_le_length all_covered]
    rfl
  · exact State.statusByte_of_running (sendPhase_ne_idle _ _) rfl rfl rfl

end Sys2Proof.Machine
end

section
/-! PROOF. The receive steps and how a decode fails (spec/42_frame_decode.md R141 to R150; spec/20_memory.md R57). -/

namespace Sys2Proof.Machine

open Sys2Proof.Safety

/-- Settles O27 by `rxHdr_below`. -/
theorem rxHeaderByte : Obligations.RxHeaderByte := by
  intro s a b more rest hagenda hrx hphase hi hacc
  exact (step_rxByte_decHdr hagenda hrx hphase).trans (congrArg Host.Outcome.next (State.rxHdr_below hi hacc))

/-- The header check on a defined marker and length: `MARKER` before `LENGTH`, else the body selection (R142, R143). -/
theorem State.headerCheck_eq {s : State} {start len : Byte} (hm : s.hdr.start = .val start)
    (hl : s.hdr.length = .val len) :
    s.headerCheck =
      if start ≠ Config.startMarker then s.decodeFail .marker
      else if Config.maxPayload < len.toNat then s.decodeFail .length
      else { s with idx := 0, phase := if 2 ≤ len.toNat then .decOfs else .decCk } := by
  obtain ⟨m, l, hm', hl', cases⟩ := State.headerCheck_cases s
  rw [hm' _ hm, hl' _ hl] at cases
  obtain ⟨bad, e⟩ | ⟨good, long, e⟩ | ⟨good, short, e⟩ := cases
  · rw [e, if_pos bad]
  · rw [e, if_neg (not_not.2 good), if_pos long]
  · rw [e, if_neg (not_not.2 good), if_neg (by omega), State.selectBody, State.sequenceLength_val hl]

/-- Settles O28: byte 5 is stored and subtracted (`rxHdr_last`), and `headerCheck_eq` is the chain of the checks. -/
theorem headerCheckAndBodySelection : Obligations.HeaderCheckAndBodySelection := by
  intro s a b start more rest hagenda hrx hphase hi hacc hstart
  have taken := Eq.trans (step_rxByte_decHdr hagenda hrx hphase)
    (congrArg Host.Outcome.next (Eq.trans (State.rxHdr_last hi hacc) (State.headerCheck_eq hstart rfl)))
  by_cases hm : start ≠ Config.startMarker
  · rw [if_pos hm] at taken
    refine ⟨_, taken, rfl, rfl, rfl, ?_⟩
    rw [if_pos hm]
    exact ⟨rfl, State.decodeFail_statusByte .marker _⟩
  · rw [if_neg hm] at taken
    by_cases hlen : Config.maxPayload < b.toNat
    · rw [if_pos hlen] at taken
      refine ⟨_, taken, rfl, rfl, rfl, ?_⟩
      rw [if_neg hm, if_pos hlen]
      exact ⟨rfl, State.decodeFail_statusByte .length _⟩
    · rw [if_neg hlen] at taken
      refine ⟨_, taken, rfl, rfl, rfl, ?_⟩
      rw [if_neg hm, if_neg hlen]

/-- Settles O31 by `step_rxCk`: a completion with `OK` where the byte is `ACC`, and a failed decode where it is not. -/
theorem rxChecksumByte : Obligations.RxChecksumByte := by
  intro s a b len more rest hagenda hrx hphase hacc hlen
  have checked := step_rxCk hagenda hrx hphase hacc hlen
  by_cases hab : a = b
  · rw [if_pos hab] at checked
    refine ⟨_, checked, rfl, rfl, ?_⟩
    rw [if_pos hab]
    exact ⟨State.completeOk_statusByte _, rfl⟩
  · rw [if_neg hab] at checked
    refine ⟨_, checked, rfl, rfl, ?_⟩
    rw [if_neg hab]
    exact State.decodeFail_statusByte .checksum _

/-- An offered end of the stream is used up, whether or not a decode runs (R57, R147). -/
theorem step_rxEos {s : State} {more : List RxEvent} {rest : List Event} (ha : s.agenda = .rxOffer :: rest)
    (hrx : s.rx = .eos :: more) :
    step s = .next (State.rxEos { s with rx := more, agenda := rest, tick := s.tick + 1 }) := by
  simp only [step_cons ha, performEvent, State.rxOffer, hrx]

theorem State.rxEos_of_ready {s : State} (h : s.rxReady = true) : s.rxEos = s.decodeFail .short := by
  simp [State.rxEos, h]

/-- Settles O32: a running decode fails with `SHORT`, and any other phase does not look at the event. -/
theorem shortReadFailsDecode : Obligations.ShortReadFailsDecode := by
  intro s more rest hagenda hrx
  have offered := step_rxEos hagenda hrx
  refine ⟨fun hready => ?_, fun hready => ?_⟩
  · rw [State.rxEos_of_ready (s := { s with rx := more, agenda := rest, tick := s.tick + 1 }) hready] at offered
    exact ⟨_, offered, rfl, rfl, State.decodeFail_statusByte .short _, rfl⟩
  · rw [offered, State.rxEos_of_not_ready (s := { s with rx := more, agenda := rest, tick := s.tick + 1 }) hready]

/-- A byte offered to a block that is not ready stays with the producer (R57). -/
theorem State.rxOffer_byte_of_not_ready {s : State} {b : Byte} {more : List RxEvent} (hrx : s.rx = .byte b :: more)
    (h : s.rxReady = false) : s.rxOffer = s := by
  simp [State.rxOffer, hrx, h]

/-- Settles O33: in these phases the block is not ready. -/
theorem rxByteWaitsOutsideDecode : Obligations.RxByteWaitsOutsideDecode := by
  intro s b more rest hagenda hrx hphase
  have not_ready : s.rxReady = false := by
    obtain hp | hp | hp | hp := hphase <;> simp [State.rxReady, hp]
  rw [step_cons hagenda]
  exact congrArg Host.Outcome.next (State.rxOffer_byte_of_not_ready
    (s := { s with agenda := rest, tick := s.tick + 1 }) hrx not_ready)

/-- What an offered event does to a running decode that has not failed: it goes on, or fails with a cause of `DEC` from
a state with the same payload buffer (R142, R146, R147). -/
theorem State.rxOffer_fails {s : State} (hr : s.rxReady = true) (hf : s.fail = false) :
    s.rxOffer.fail = false ∨
      ∃ c t, (c = .marker ∨ c = .length ∨ c = .checksum ∨ c = .short) ∧ t.pbuf = s.pbuf ∧
        s.rxOffer = State.decodeFail c t := by
  obtain ⟨-, e⟩ | ⟨b, rest, -, -, e⟩ | ⟨b, rest, -, -, e⟩ | ⟨rest, -, e⟩ := State.rxOffer_cases s
  · exact .inl (by rw [e, hf])
  · exact .inl (by rw [e, hf])
  · rw [e]
    obtain same | cleared | ⟨c, t, hc, ht, failed⟩ := State.rxByte_fails b { s with rx := rest }
    · exact .inl (same.trans hf)
    · exact .inl cleared
    · exact .inr ⟨c, t, by tauto, ht, failed⟩
  · rw [e]
    exact .inr ⟨.short, { s with rx := rest }, by tauto, rfl, State.rxEos_of_ready (s := { s with rx := rest }) hr⟩

/-- Settles O38: the step is a `decodeFail`, which gives up the outputs and keeps `PBUF` from 118 on. -/
theorem failedDecodeForgetsOutputs : Obligations.FailedDecodeForgetsOutputs := by
  intro s t rest hagenda hready hfail hstep hfailed
  rw [step_cons hagenda] at hstep
  obtain rfl := Host.Outcome.next.inj hstep
  obtain goes_on | ⟨c, u, hc, hpbuf, e⟩ := State.rxOffer_fails
    (s := { s with agenda := rest, tick := s.tick + 1 }) hready hfail
  · rw [goes_on] at hfailed
    cases hfailed
  · rw [e]
    have kept (k : Nat) : (u.decodeFail c).pbuf.read k = if k < 118 then .unspec else s.pbuf.read k := by
      rw [State.decodeFail_pbuf, Memory.read_forgetBelow, hpbuf]
      rfl
    refine ⟨rfl, rfl, rfl, rfl, rfl, rfl, rfl, Header.get_unspec, fun k hk => (kept k).trans (if_pos hk),
      fun k hk => (kept k).trans (if_neg (by omega)), ?_⟩
    obtain rfl | rfl | rfl | rfl := hc <;> simp [Cause.code]

end Sys2Proof.Machine
end

section
/-! PROOF. Whole decodes: a bad header (R142, R148), and a header with its body, then the checksum byte
(spec/42_frame_decode.md R144 to R151). -/

namespace Sys2Proof.Machine

open Sys2Proof.Safety

/-! ## A bad header -/

theorem delivered_append (bytes bytes' : List Byte) :
    delivered (bytes ++ bytes') = delivered bytes ++ delivered bytes' := List.map_append

/-- The machine once `DEC` has been accepted and the header bytes `bytes`, fewer than six, have been taken. -/
def State.receiving (s : State) (bytes : List Byte) (rx : List RxEvent) (agenda : List Event) : State :=
  { s with
    phase := .decHdr, idx := BitVec.ofNat 7 bytes.length, ok := false, fail := false, err := 0,
    hdr := s.hdr.store 0 bytes, acc := .val (ck8 bytes), rx := rx, agenda := agenda,
    tick := s.tick + (1 + bytes.length) }

theorem run_dec_receiving {s : State} {more : List RxEvent} {rest : List Event} (bytes : List Byte)
    (hidle : s.phase = .idle) (hlen : bytes.length ≤ 5) (hrx : s.rx = delivered bytes ++ more)
    (ha : s.agenda = .host (encode .dec) :: (List.replicate bytes.length .rxOffer ++ rest)) :
    Host.Core.run Sys2Proof.core (1 + bytes.length) s = .next (s.receiving bytes more rest) := by
  have zero_acc : (0x00 : Byte) + ck8 bytes = ck8 bytes := zero_add _
  have zero_idx : (0 : BitVec 7) + BitVec.ofNat 7 bytes.length = BitVec.ofNat 7 bytes.length := BitVec.zero_add _
  rw [Nat.add_comm 1]
  refine Eq.trans (run_succ bytes.length (step_dec_idle hidle ha))
    (Eq.trans (run_rxHdr_below bytes rfl (by simpa using hlen) rfl hrx rfl) ?_)
  simp only [zero_acc, zero_idx, Nat.add_assoc]
  rfl

/-- Settles O37: after `DEC` and `k ≤ 5` header bytes the decode runs; the sixth brings the header check, which
fails. -/
theorem badHeaderConsumesSix : Obligations.BadHeaderConsumesSix := by
  intro s start device address command item len more rest hidle hbad hrx hagenda
  refine ⟨fun k hk => ?_, ?_⟩
  · obtain ⟨taken, left, hsplit, htaken⟩ : ∃ taken left : List Byte,
        [start, device, address, command, item, len] = taken ++ left ∧ taken.length = k :=
      ⟨_, _, (List.take_append_drop k _).symm, List.length_take_of_le (by simp; omega)⟩
    rw [hsplit, delivered_append, List.append_assoc] at hrx
    rw [show 6 = taken.length + (6 - k) by omega, List.replicate_add, List.append_assoc] at hagenda
    have read := run_dec_receiving taken hidle (by omega) hrx hagenda
    rw [htaken] at read
    exact ⟨_, read, State.statusByte_of_running (by simp [State.receiving]) rfl rfl rfl⟩
  · have five := run_dec_receiving [start, device, address, command, item] (more := .byte len :: more)
      (rest := .rxOffer :: rest) hidle le_rfl hrx hagenda
    obtain ⟨t, hstep, ht, -, -, outcome⟩ := headerCheckAndBodySelection
      (s.receiving [start, device, address, command, item] (.byte len :: more) (.rxOffer :: rest))
      _ len start more rest rfl rfl rfl rfl rfl rfl
    refine ⟨t, (run_add 6 1 five).trans (run_succ 0 hstep), ht, ?_⟩
    by_cases hm : start ≠ Config.startMarker
    · rw [if_pos hm] at outcome ⊢
      exact outcome
    · rw [if_neg hm, if_pos (hbad.resolve_left hm)] at outcome
      rw [if_neg hm]
      exact outcome

/-! ## The body -/

/-- The buffer with `bytes` written from index `i` on (R145). -/
def Memory.store (m : Memory) (i : Nat) (bytes : List Byte) : Memory :=
  match bytes with
  | [] => m
  | b :: bytes => (m.write i b).store (i + 1) bytes

/-- The stored bytes read back, and every other index reads as before. -/
theorem Memory.read_store (m : Memory) (i k : Nat) (bytes : List Byte) :
    (m.store i bytes).read k = if h : i ≤ k ∧ k - i < bytes.length then .val bytes[k - i] else m.read k := by
  induction bytes generalizing m i with
  | nil => simp [Memory.store]
  | cons b bytes ih =>
    rw [Memory.store, ih, Memory.read_write]
    obtain hk | rfl | hk := Nat.lt_trichotomy k i
    · rw [dif_neg (by omega), dif_neg (by omega), if_neg (by omega)]
    · rw [dif_neg (by omega), if_pos rfl, dif_pos (by simp)]
      simp
    · have next_index : k - i = k - (i + 1) + 1 := by omega
      by_cases hlen : k - (i + 1) < bytes.length
      · rw [dif_pos ⟨hk, hlen⟩, dif_pos ⟨hk.le, by rw [List.length_cons]; omega⟩]
        simp only [next_index, List.getElem_cons_succ]
      · rw [dif_neg (by omega), if_neg (by omega), dif_neg (by rw [List.length_cons]; omega)]

/-- `IDX + 1` does not wrap within its bounds (R22, R31). -/
theorem idx_succ_toNat {i : BitVec 7} (h : i.toNat < 127) : (i + 1).toNat = i.toNat + 1 := by
  rw [BitVec.toNat_add]
  exact Nat.mod_eq_of_lt (show i.toNat + 1 < 2 ^ 7 by omega)

/-- The checksum of two runs of bytes. -/
theorem ck8_append (bytes bytes' : List Byte) : ck8 (bytes ++ bytes') = ck8 bytes + ck8 bytes' := by
  induction bytes with
  | nil => exact (zero_add _).symm
  | cons b bytes ih =>
    rw [List.cons_append, ck8_cons, ck8_cons, ih]
    abel

section

variable {s : State} {a lo hi len : Byte} {more : List RxEvent} {rest : List Event}

/-- The two offset bytes, then the rest of a run (R144). -/
theorem run_rxOfs (k : Nat) (hp : s.phase = .decOfs) (hi0 : s.idx = 0) (hacc : s.acc = .val a)
    (hl : s.hdr.length = .val len) (hrx : s.rx = .byte lo :: .byte hi :: more)
    (ha : s.agenda = .rxOffer :: .rxOffer :: rest) :
    Host.Core.run Sys2Proof.core (k + 2) s = Host.Core.run Sys2Proof.core k { s with
      ofsLo := .val lo, ofsHi := .val hi, acc := .val (a - lo - hi), idx := 0,
      phase := if 2 < len.toNat then .decPay else .decCk, rx := more, agenda := rest, tick := s.tick + 2 } := by
  have first := (rxOffsetByte s a lo len (.byte hi :: more) (.rxOffer :: rest) ha hrx hp hacc hl).1 hi0
  have second := (rxOffsetByte { s with
    ofsLo := .val lo, acc := .val (a - lo), idx := 1, rx := .byte hi :: more, agenda := .rxOffer :: rest,
    tick := s.tick + 1 } (a - lo) hi len more rest rfl rfl hp rfl hl).2 rfl
  exact (run_succ (k + 1) first).trans (run_succ k second)

theorem step_rxPay {b : Byte} (hp : s.phase = .decPay) (hacc : s.acc = .val a) (hl : s.hdr.length = .val len)
    (hrx : s.rx = .byte b :: more) (ha : s.agenda = .rxOffer :: rest) :
    step s = .next { s with
      pbuf := s.pbuf.write s.idx.toNat b, acc := .val (a - b),
      idx := if s.idx.toNat < len.toNat - 3 then s.idx + 1 else 0,
      phase := if s.idx.toNat < len.toNat - 3 then .decPay else .decCk,
      rx := more, agenda := rest, tick := s.tick + 1 } :=
  Eq.trans (step_rxByte_decPay ha hrx hp) (congrArg Host.Outcome.next (State.rxPay_eq hp hacc hl))

/-- The payload bytes, up to the last one (R145). -/
theorem run_rxPay (b : Byte) (bytes : List Byte) (hp : s.phase = .decPay) (hacc : s.acc = .val a)
    (hl : s.hdr.length = .val len) (hlen : s.idx.toNat + (bytes.length + 1) + 2 = len.toNat)
    (hshort : len.toNat ≤ Config.maxPayload) (hrx : s.rx = delivered (b :: bytes) ++ more)
    (ha : s.agenda = List.replicate (bytes.length + 1) .rxOffer ++ rest) :
    Host.Core.run Sys2Proof.core (bytes.length + 1) s = .next { s with
      pbuf := s.pbuf.store s.idx.toNat (b :: bytes), acc := .val (a + ck8 (b :: bytes)), idx := 0, phase := .decCk,
      rx := more, agenda := rest, tick := s.tick + (bytes.length + 1) } := by
  simp only [Config.maxPayload] at hshort
  induction bytes generalizing s a b with
  | nil =>
    have last : ¬ s.idx.toNat < len.toNat - 3 := by rw [List.length_nil] at hlen; omega
    refine Eq.trans (run_succ 0 (step_rxPay hp hacc hl hrx ha)) ?_
    have acc_last : a - b = a + ck8 [b] := by rw [ck8_cons, ck8_nil]; abel
    simp only [if_neg last, acc_last]
    rfl
  | cons c bytes ih =>
    rw [List.length_cons] at hlen
    have before_last : s.idx.toNat < len.toNat - 3 := by omega
    have next_idx := idx_succ_toNat (show s.idx.toNat < 127 by omega)
    have acc_sum : a - b + ck8 (c :: bytes) = a + ck8 (b :: c :: bytes) := by rw [ck8_cons b]; abel
    have tick_sum : s.tick + 1 + (bytes.length + 1) = s.tick + (bytes.length + 1 + 1) := by omega
    have taken := step_rxPay hp hacc hl hrx ha
    simp only [if_pos before_last] at taken
    refine Eq.trans (run_succ (bytes.length + 1) taken)
      (Eq.trans (ih c rfl rfl hl (by simp only [next_idx]; omega) rfl rfl) ?_)
    simp only [next_idx, acc_sum, tick_sum]
    rfl

end

end Sys2Proof.Machine
end

section
/-! PROOF. Whole frames (spec/42_frame_decode.md R148 to R151): the covered bytes, then the byte compared with their
checksum; and the round trip from a sender to a receiver. -/

namespace Sys2Proof.Machine

open Sys2Proof.Safety

/-- The machine once `DEC` has been accepted and the `6 + L` covered bytes of a frame, `L ≠ 1`, have been taken: the
next byte is compared with `ACC` (R145, R146). -/
def State.checking (s : State) (device address command item : Byte) (body : List Byte) (rx : List RxEvent)
    (agenda : List Event) : State :=
  { s with
    phase := .decCk, idx := 0, ok := false, fail := false, err := 0,
    hdr := { start := .val Config.startMarker, device := .val device, address := .val address,
             command := .val command, item := .val item, length := .val (BitVec.ofNat 8 body.length) },
    ofsLo := if h : 2 ≤ body.length then .val body[0] else s.ofsLo,
    ofsHi := if h : 2 ≤ body.length then .val body[1] else s.ofsHi,
    acc := .val (ck8 (covered device address command item body)), pbuf := s.pbuf.store 0 (body.drop 2),
    rx := rx, agenda := agenda, tick := s.tick + (1 + (6 + body.length)) }

/-- The payload after the offset field lands from index 0 on (R145, R149). -/
theorem Memory.read_store_drop (m : Memory) (body : List Byte) (k : Nat) :
    (m.store 0 (body.drop 2)).read k = if h : k + 2 < body.length then .val body[k + 2] else m.read k := by
  rw [Memory.read_store]
  by_cases h : k + 2 < body.length
  · rw [dif_pos h, dif_pos (by rw [List.length_drop]; omega)]
    simp only [List.getElem_drop, Nat.sub_zero, Nat.add_comm 2]
  · rw [dif_neg h, dif_neg (by rw [List.length_drop]; omega)]

section

variable {s : State} {a lo hi len device address command item c : Byte} {body pay : List Byte} {more : List RxEvent}
  {rest : List Event}

/-- The body of a frame with an offset field (R144, R145). -/
theorem run_rxBody (hp : s.phase = .decOfs) (hi0 : s.idx = 0) (hacc : s.acc = .val a) (hl : s.hdr.length = .val len)
    (hlen : len.toNat = pay.length + 2) (hshort : len.toNat ≤ Config.maxPayload)
    (hrx : s.rx = delivered (lo :: hi :: pay) ++ more)
    (ha : s.agenda = List.replicate (pay.length + 2) .rxOffer ++ rest) :
    Host.Core.run Sys2Proof.core (pay.length + 2) s = .next { s with
      phase := .decCk, idx := 0, ofsLo := .val lo, ofsHi := .val hi, pbuf := s.pbuf.store 0 pay,
      acc := .val (a + ck8 (lo :: hi :: pay)), rx := more, agenda := rest, tick := s.tick + (pay.length + 2) } := by
  have acc_sum : a - lo - hi + ck8 pay = a + ck8 (lo :: hi :: pay) := by rw [ck8_cons, ck8_cons]; abel
  refine Eq.trans (run_rxOfs pay.length hp hi0 hacc hl hrx ha) ?_
  cases pay with
  | nil =>
    have no_payload : ¬ 2 < len.toNat := by rw [List.length_nil] at hlen; omega
    rw [ck8_nil, show a - lo - hi + 0x00 = a - lo - hi from add_zero _] at acc_sum
    simp only [if_neg no_payload, acc_sum]
    rfl
  | cons b bytes =>
    rw [List.length_cons] at hlen
    have payload : 2 < len.toNat := by omega
    have tick_sum : s.tick + 2 + (bytes.length + 1) = s.tick + (bytes.length + 1 + 2) := by omega
    simp only [if_pos payload]
    refine Eq.trans (run_rxPay b bytes rfl rfl hl (by simp [hlen]) hshort rfl rfl) ?_
    simp only [acc_sum, tick_sum, List.length_cons]
    rfl

/-- `DEC` and the covered bytes of a frame whose length is not 1. -/
theorem run_dec_covered (hidle : s.phase = .idle) (hone : body.length ≠ 1) (hshort : body.length ≤ Config.maxPayload)
    (hrx : s.rx = delivered (covered device address command item body) ++ more)
    (ha : s.agenda = .host (encode .dec) :: (List.replicate (6 + body.length) .rxOffer ++ rest)) :
    Host.Core.run Sys2Proof.core (1 + (6 + body.length)) s =
      .next (s.checking device address command item body more rest) := by
  have len_toNat := length_byte_toNat hshort
  rw [covered, delivered_append, List.append_assoc] at hrx
  rw [List.replicate_add, List.append_assoc] at ha
  have header := run_dec_header hidle (by rwa [len_toNat]) hrx ha
  rw [len_toNat] at header
  rw [← Nat.add_assoc]
  refine Eq.trans (run_add 7 body.length header) ?_
  match body, hone with
  | [], _ => rfl
  | lo :: hi :: pay, _ =>
    have offset : 2 ≤ (lo :: hi :: pay).length := by simp
    have checksum : ck8 (covered device address command item (lo :: hi :: pay)) =
        ck8 [Config.startMarker, device, address, command, item, BitVec.ofNat 8 (lo :: hi :: pay).length] +
          ck8 (lo :: hi :: pay) := ck8_append _ _
    have tick_sum : s.tick + 7 + (pay.length + 2) = s.tick + (1 + (6 + (lo :: hi :: pay).length)) := by
      simp only [List.length_cons]
      omega
    rw [if_pos offset]
    refine Eq.trans (run_rxBody rfl rfl rfl rfl len_toNat (by rwa [len_toNat]) rfl rfl) ?_
    rw [State.checking, checksum, dif_pos offset, dif_pos offset, ← tick_sum]
    rfl

/-- Such a frame, from `DEC` to the byte that is compared with the checksum (R146, R149, R150). -/
theorem run_dec_checksum (hidle : s.phase = .idle) (hone : body.length ≠ 1) (hshort : body.length ≤ Config.maxPayload)
    (hrx : s.rx = delivered (covered device address command item body ++ [c]) ++ more)
    (ha : s.agenda = .host (encode .dec) :: (List.replicate (6 + body.length + 1) .rxOffer ++ rest)) :
    Host.Core.run Sys2Proof.core (1 + (6 + body.length + 1)) s =
      step (s.checking device address command item body (.byte c :: more) (.rxOffer :: rest)) := by
  rw [delivered_append, List.append_assoc] at hrx
  rw [List.replicate_succ', List.append_assoc] at ha
  obtain ⟨t, ht⟩ := step_next (s.checking device address command item body (.byte c :: more) (.rxOffer :: rest))
  rw [ht]
  exact (run_add (1 + (6 + body.length)) 1 (run_dec_covered hidle hone hshort hrx ha)).trans (run_succ 0 ht)

end

/-- Settles O34: the byte after the covered ones is their checksum, so the decode completes with `OK`. -/
theorem decodeAcceptsFrame : Obligations.DecodeAcceptsFrame := by
  intro s device address command item body more rest hidle hone hshort hrx hagenda
  have len_toNat := length_byte_toNat hshort
  have accepted := (run_dec_checksum hidle hone hshort hrx hagenda).trans (step_rxCk rfl rfl rfl rfl rfl)
  rw [if_pos rfl, len_toNat] at accepted
  refine ⟨_, accepted, State.completeOk_statusByte _, Memory.read_store_drop s.pbuf body, ?_⟩
  by_cases hofs : 2 ≤ body.length
  · have kept : ¬ body.length < 2 := by omega
    simp only [State.completeOk, State.checking, dif_pos hofs, if_neg kept, Nat.add_assoc]
  · have given_up : body.length < 2 := by omega
    simp only [State.completeOk, State.checking, dif_neg hofs, if_pos given_up, Nat.add_assoc]

/-- Settles O35: the byte differs from the checksum, so the decode fails and gives up its outputs; a payload lands below
index 118. -/
theorem decodeRejectsWrongChecksum : Obligations.DecodeRejectsWrongChecksum := by
  intro s device address command item c body more rest hidle hone hshort hc hrx hagenda
  have rejected := (run_dec_checksum hidle hone hshort hrx hagenda).trans (step_rxCk rfl rfl rfl rfl rfl)
  rw [if_neg (Ne.symm hc)] at rejected
  refine ⟨_, rejected, State.decodeFail_statusByte .checksum _, fun k => ?_, ?_⟩
  · refine (Memory.read_forgetBelow _ _ k).trans ?_
    by_cases hk : k < 118
    · rw [if_pos hk]
      exact if_pos hk
    · rw [if_neg hk]
      refine (if_neg hk).trans ((Memory.read_store_drop s.pbuf body k).trans (dif_neg ?_))
      simp only [Config.maxPayload] at hshort
      omega
  · rfl

/-- Settles O39: the sender's run is `encodeSendsFrame`, and its frame is one that `decodeAcceptsFrame` accepts. -/
theorem encodeDecodeRoundTrip : Obligations.EncodeDecodeRoundTrip := by
  intro s device address command item body w rest hload hw hone hagenda
  refine ⟨_, frame device address command item body,
    encodeSendsFrame s device address command item body w rest hload hw hagenda, rfl, ?_⟩
  intro r more later hidle hrx hoffers
  have frame_length : (frame device address command item body).length = 6 + body.length + 1 := by
    rw [frame, List.length_append, covered_length]
    rfl
  rw [frame_length] at hoffers ⊢
  obtain ⟨u, hrun, hstatus, hpbuf, hu⟩ :=
    decodeAcceptsFrame r device address command item body more later hidle hone hload.short hrx hoffers
  refine ⟨u, hrun, hstatus, by rw [hu], ?_, fun hofs => ⟨?_, fun k hk => ?_⟩⟩
  · rw [hu, ← hload.device, ← hload.address, ← hload.command, ← hload.item, ← hload.length]
  · rw [hu]
    simp only [State.ofsWord, dif_pos hofs]
  · rw [hpbuf, dif_pos hk]

end Sys2Proof.Machine
end

section
/-! PROOF. The invariant (spec/10_state.md R22, R27, R28): every event keeps it, reset has it, and `STATUS` has only
legal values in its states (spec/43_register_access.md R171). -/

namespace Sys2Proof.Machine

open Sys2Proof.Safety

/-! ## The invariant's parts -/

theorem inv_iff (s : State) :
    inv s = true ↔ s.pbuf.wf = true ∧ statusLegal s = true ∧ sequencerLegal s = true ∧ markerLegal s = true := by
  simp only [inv, Bool.and_eq_true, and_assoc]

/-- The legal combinations of `STATUS` (R28, R171). -/
theorem statusLegal_iff (s : State) :
    statusLegal s = true ↔ ¬ (s.ok = true ∧ s.fail = true) ∧ (s.phase ≠ .idle → s.ok = false ∧ s.fail = false) ∧
      (s.fail = true ↔ s.err ≠ 0) ∧ s.err ≠ 7 := by
  have fail_iff : (s.fail == (s.err != 0)) = true ↔ (s.fail = true ↔ s.err ≠ 0) := by
    rw [beq_iff_eq, Bool.eq_iff_iff, bne_iff_ne]
  simp only [statusLegal, Bool.and_eq_true, fail_iff, bne_iff_ne, and_assoc, Bool.not_eq_true', Bool.and_eq_false_iff,
    Bool.or_eq_true, ← State.busy_iff]
  cases s.ok <;> cases s.fail <;> cases s.busy <;> simp

/-- The length bound, where the register holds a byte. -/
theorem lengthWithin_iff (lo : Nat) (s : State) :
    lengthWithin lo s = true ↔ ∀ b, s.hdr.length = .val b → lo ≤ b.toNat ∧ b.toNat ≤ Config.maxPayload := by
  cases h : s.hdr.length <;> simp [lengthWithin, h]

section

variable {s t : State} {lo lo' : Nat}

/-- A larger lower bound follows from the length that the sequencer goes by. -/
theorem lengthWithin_of_le (h : lengthWithin lo s = true) (hle : lo' ≤ s.sequenceLength) :
    lengthWithin lo' s = true := by
  rw [lengthWithin_iff] at h ⊢
  intro b hb
  rw [State.sequenceLength_val hb] at hle
  exact ⟨hle, (h b hb).2⟩

theorem lengthWithin_mono (h : lengthWithin lo s = true) (hle : lo' ≤ lo) : lengthWithin lo' s = true := by
  rw [lengthWithin_iff] at h ⊢
  exact fun b hb => ⟨hle.trans (h b hb).1, (h b hb).2⟩

/-- The length that the sequencer goes by is at most 120, defined or not (R22; log 6). -/
theorem sequenceLength_le (h : lengthWithin lo s = true) : s.sequenceLength ≤ 120 := by
  cases hl : s.hdr.length with
  | unspec => exact State.sequenceLength_unspec hl
  | val b =>
    rw [State.sequenceLength_val hl]
    exact ((lengthWithin_iff lo s).1 h b hl).2

/-! ## Completions and running steps -/

/-- A state that has completed has the invariant by its status alone. -/
theorem inv_of_idle (hp : s.phase = .idle) (hi : s.idx = 0) (hwf : s.pbuf.wf = true) (hs : statusLegal s = true) :
    inv s = true := by
  rw [inv_iff]
  exact ⟨hwf, hs, by simp [sequencerLegal, hp, hi], by simp [markerLegal, hp]⟩

theorem inv_completeOk (hwf : s.pbuf.wf = true) : inv s.completeOk = true :=
  inv_of_idle rfl rfl hwf (by simp [statusLegal_iff])

theorem inv_completeFail (c : Cause) (hwf : s.pbuf.wf = true) : inv (s.completeFail c) = true :=
  inv_of_idle rfl rfl hwf (by cases c <;> simp [statusLegal_iff, Cause.code])

theorem inv_decodeFail (c : Cause) (hwf : s.pbuf.wf = true) : inv (s.decodeFail c) = true :=
  inv_completeFail c (Memory.wf_forgetBelow s.pbuf Config.decodeReach hwf)

/-- A running command that goes on keeps its clear flags; its sequencer and marker remain to be checked. -/
theorem inv_of_running (hinv : inv s = true) (hs : s.phase ≠ .idle) (ht : t.phase ≠ .idle)
    (hflags : t.ok = s.ok ∧ t.fail = s.fail ∧ t.err = s.err) (hwf : t.pbuf.wf = true)
    (hseq : sequencerLegal t = true) (hmark : markerLegal t = true) : inv t = true := by
  obtain ⟨-, hstatus, -, -⟩ := (inv_iff s).1 hinv
  obtain ⟨hok, hfail, herr⟩ := hflags
  have status_kept : statusLegal t = statusLegal s := by
    simp only [statusLegal, State.busy_eq_true hs, State.busy_eq_true ht, hok, hfail, herr]
  exact (inv_iff t).2 ⟨hwf, status_kept.trans hstatus, hseq, hmark⟩

/-- A command that starts runs with clear flags (R207). -/
theorem inv_of_started (hok : s.ok = false) (hfail : s.fail = false) (herr : s.err = 0)
    (hwf : s.pbuf.wf = true) (hseq : sequencerLegal s = true) (hmark : markerLegal s = true) : inv s = true :=
  (inv_iff s).2 ⟨hwf, by simp [statusLegal_iff, hok, hfail, herr], hseq, hmark⟩

/-! ## Host accesses -/

theorem inv_busyHazard (hinv : inv s = true) (hs : s.phase ≠ .idle) : inv s.busyHazard = true := by
  obtain ⟨-, -, hseq, -⟩ := (inv_iff s).1 hinv
  refine inv_of_running hinv hs hs ⟨rfl, rfl, rfl⟩ Memory.wf_nil ?_ ?_
  · have unspec_within (lo : Nat) : lengthWithin lo s.busyHazard = true := rfl
    cases hp : s.phase <;> simp_all [sequencerLegal]
  · cases hp : s.phase <;> simp [markerLegal, hp, Header.unspec]

theorem inv_startEncode (hwf : s.pbuf.wf = true)
    (hlen : ∀ b, s.hdr.length = .val b → b.toNat ≤ Config.maxPayload) : inv s.acceptCommand.startEncode = true := by
  refine inv_of_started rfl rfl rfl hwf ?_ (by simp [markerLegal])
  have within : lengthWithin 0 s.acceptCommand.startEncode = true :=
    (lengthWithin_iff 0 _).2 fun b hb => ⟨Nat.zero_le _, hlen b hb⟩
  simp [sequencerLegal, within]

theorem CommandEffect.inv {i : Instr} (h : CommandEffect i s t) (hwf : s.pbuf.wf = true) : Safety.inv t = true := by
  cases h with
  | clear => exact inv_completeOk hwf
  | reserved => exact inv_completeFail .badCmd hwf
  | decode => exact inv_of_started rfl rfl rfl hwf (by simp [sequencerLegal]) (by simp [markerLegal])
  | encode p =>
    obtain ⟨len, hlen, ⟨-, e⟩ | ⟨-, -, -, e⟩ | ⟨hshort, -, e⟩⟩ := State.acceptEncode_cases p s
    · rw [e]
      exact inv_completeFail .length hwf
    · rw [e]
      exact inv_completeFail .noPayload hwf
    · rw [e]
      exact inv_startEncode hwf fun b hb => hlen b hb ▸ hshort

theorem StoreEffect.inv (h : StoreEffect s t) (hp : s.phase = .idle) (hinv : Safety.inv s = true) :
    Safety.inv t = true := by
  obtain ⟨hwf, hstatus, hseq, -⟩ := (inv_iff s).1 hinv
  have hi : s.idx = 0 := by simpa [sequencerLegal, hp] using hseq
  cases h with
  | checksum d => exact hinv
  | header f d => exact inv_of_idle hp hi hwf hstatus
  | payload i d => exact inv_of_idle hp hi (Memory.wf_write s.pbuf i.toNat d i.isLt hwf) hstatus

/-- Every host access keeps the invariant. -/
theorem inv_exec {i : Instr} (hinv : inv s = true) (h : exec i s = .next t) : inv t = true := by
  obtain ⟨hwf, -, -, -⟩ := (inv_iff s).1 hinv
  cases exec_cases h with
  | read | ignored => exact hinv
  | command _ _ _ heffect =>
    obtain ⟨-, e⟩ | ⟨hp, e⟩ := State.guardedWrite_cases s _
    · exact e ▸ heffect.inv hwf
    · exact e ▸ inv_busyHazard hinv hp
  | store _ _ _ heffect =>
    obtain ⟨hp, e⟩ | ⟨hp, e⟩ := State.guardedWrite_cases s _
    · exact e ▸ heffect.inv hp hinv
    · exact e ▸ inv_busyHazard hinv hp

/-! ## Transmit steps -/

theorem inv_afterTxHdr (hinv : inv s = true) (hp : s.phase = .encHdr) : inv s.afterTxHdr = true := by
  obtain ⟨hwf, -, hseq, hmark⟩ := (inv_iff s).1 hinv
  have hs : s.phase ≠ .idle := by simp [hp]
  simp only [sequencerLegal, hp, Bool.and_eq_true, decide_eq_true_eq] at hseq
  simp only [markerLegal, hp] at hmark
  obtain ⟨-, hlen⟩ := hseq
  unfold State.afterTxHdr
  split
  · have next := idx_succ_toNat (show s.idx.toNat < 127 by omega)
    refine inv_of_running hinv hs hs ⟨rfl, rfl, rfl⟩ hwf ?_ (by simpa only [markerLegal, hp] using hmark)
    simp only [sequencerLegal, hp, next, Bool.and_eq_true, decide_eq_true_eq]
    exact ⟨by omega, hlen⟩
  · split
    · exact inv_of_running hinv hs (by simp) ⟨rfl, rfl, rfl⟩ hwf (Bool.and_eq_true_iff.2 ⟨rfl, hlen⟩) hmark
    · have payload : lengthWithin 1 s = true := lengthWithin_of_le hlen (by omega)
      exact inv_of_running hinv hs (by simp) ⟨rfl, rfl, rfl⟩ hwf (Bool.and_eq_true_iff.2 ⟨rfl, payload⟩) hmark

theorem inv_afterTxPay (hinv : inv s = true) (hp : s.phase = .encPay) : inv s.afterTxPay = true := by
  obtain ⟨hwf, -, hseq, hmark⟩ := (inv_iff s).1 hinv
  have hs : s.phase ≠ .idle := by simp [hp]
  simp only [sequencerLegal, hp, Bool.and_eq_true, decide_eq_true_eq] at hseq
  simp only [markerLegal, hp] at hmark
  obtain ⟨hidx, hlen⟩ := hseq
  unfold State.afterTxPay
  split
  · have bound := sequenceLength_le hlen
    have next := idx_succ_toNat (show s.idx.toNat < 127 by omega)
    refine inv_of_running hinv hs hs ⟨rfl, rfl, rfl⟩ hwf ?_ (by simpa only [markerLegal, hp] using hmark)
    simp only [sequencerLegal, hp, next, Bool.and_eq_true, decide_eq_true_eq]
    exact ⟨by omega, lengthWithin_of_le (s := s) hlen (by omega)⟩
  · have within : lengthWithin 0 s = true := lengthWithin_mono hlen (Nat.zero_le _)
    exact inv_of_running hinv hs (by simp) ⟨rfl, rfl, rfl⟩ hwf (Bool.and_eq_true_iff.2 ⟨rfl, within⟩) hmark

/-- The sequencer's step after any byte, in any phase, keeps the invariant. -/
theorem inv_afterTx (r : Reg) (hinv : inv s = true) : inv (s.afterTx r) = true := by
  cases hp : s.phase with
  | encHdr =>
    rw [State.afterTx_encHdr r hp]
    exact inv_afterTxHdr (s := s.subtract r) hinv hp
  | encPay =>
    rw [State.afterTx_encPay r hp]
    exact inv_afterTxPay (s := s.subtract r) hinv hp
  | encCk =>
    rw [State.afterTx_encCk r hp]
    exact inv_completeOk ((inv_iff s).1 hinv).1
  | idle | decHdr | decOfs | decPay | decCk => simpa only [State.afterTx, hp] using hinv

theorem inv_txAccept (hinv : inv s = true) : inv s.txAccept = true := by
  obtain ⟨-, e⟩ | ⟨r, b, -, -, e⟩ := State.txAccept_cases s
  · rwa [e]
  · rw [e]
    exact inv_afterTx r (s := { s with tx := s.tx ++ [b] }) hinv

/-! ## Receive steps -/

/-- The header check keeps the invariant: what follows it is bounded by the length that it has passed (R142, R143). -/
theorem inv_headerCheck (hinv : inv s = true) (hp : s.phase = .decHdr) : inv s.headerCheck = true := by
  obtain ⟨hwf, -, -, -⟩ := (inv_iff s).1 hinv
  have hs : s.phase ≠ .idle := by simp [hp]
  obtain ⟨m, len, -, hlen, ⟨-, e⟩ | ⟨-, -, e⟩ | ⟨-, hshort, e⟩⟩ := State.headerCheck_cases s
  · exact e ▸ inv_decodeFail .marker hwf
  · exact e ▸ inv_decodeFail .length hwf
  · rw [e, State.selectBody]
    have within : lengthWithin 0 s = true := (lengthWithin_iff 0 s).2 fun c hc => ⟨Nat.zero_le _, hlen c hc ▸ hshort⟩
    by_cases hofs : 2 ≤ s.sequenceLength
    · rw [if_pos hofs]
      exact inv_of_running hinv hs (by simp) ⟨rfl, rfl, rfl⟩ hwf
        (Bool.and_eq_true_iff.2 ⟨rfl, lengthWithin_of_le within hofs⟩) rfl
    · rw [if_neg hofs]
      exact inv_of_running hinv hs (by simp) ⟨rfl, rfl, rfl⟩ hwf (Bool.and_eq_true_iff.2 ⟨rfl, within⟩) rfl

/-- In `DEC_HDR` the header registers are free. -/
theorem inv_storeHdr (hdr : Header) (acc : Reg) (hinv : inv s = true) (hp : s.phase = .decHdr) :
    inv { s with hdr := hdr, acc := acc } = true := by
  obtain ⟨hwf, -, hseq, -⟩ := (inv_iff s).1 hinv
  refine inv_of_running hinv (by simp [hp]) (by simp [hp]) ⟨rfl, rfl, rfl⟩ hwf ?_ (by simp only [markerLegal, hp])
  simpa only [sequencerLegal, hp] using hseq

theorem inv_rxHdr (b : Byte) (hinv : inv s = true) (hp : s.phase = .decHdr) : inv (s.rxHdr b) = true := by
  have stored := inv_storeHdr (s.hdr.set (hdrFieldOf s.idx.toNat) (.val b)) (s.acc.minus (.val b)) hinv hp
  obtain ⟨hwf, -, hseq, -⟩ := (inv_iff _).1 stored
  simp only [sequencerLegal, hp, decide_eq_true_eq] at hseq
  unfold State.rxHdr
  by_cases hi : s.idx.toNat < 5
  · have next := idx_succ_toNat (show s.idx.toNat < 127 by omega)
    simp only [if_pos hi]
    refine inv_of_running stored (by simp [hp]) (by simp [hp]) ⟨rfl, rfl, rfl⟩ hwf ?_ (by simp [markerLegal, hp])
    simp only [sequencerLegal, State.subtract_phase, hp, next, decide_eq_true_eq]
    omega
  · simp only [if_neg hi]
    exact inv_headerCheck stored hp

theorem inv_rxOfs (b : Byte) (hinv : inv s = true) (hp : s.phase = .decOfs) : inv (s.rxOfs b) = true := by
  obtain ⟨hwf, -, hseq, -⟩ := (inv_iff s).1 hinv
  have hs : s.phase ≠ .idle := by simp [hp]
  simp only [sequencerLegal, hp, Bool.and_eq_true, decide_eq_true_eq] at hseq
  obtain ⟨-, hlen⟩ := hseq
  simp only [State.rxOfs]
  split
  · refine inv_of_running hinv hs hs ⟨rfl, rfl, rfl⟩ hwf ?_ (by simp [markerLegal, hp])
    simp only [sequencerLegal, State.subtract_phase, hp]
    exact Bool.and_eq_true_iff.2 ⟨rfl, hlen⟩
  · by_cases hpay : 2 < s.sequenceLength
    · rw [if_pos hpay]
      exact inv_of_running hinv hs (by simp) ⟨rfl, rfl, rfl⟩ hwf
        (Bool.and_eq_true_iff.2 ⟨rfl, lengthWithin_of_le (s := s) hlen hpay⟩) rfl
    · rw [if_neg hpay]
      exact inv_of_running hinv hs (by simp) ⟨rfl, rfl, rfl⟩ hwf
        (Bool.and_eq_true_iff.2 ⟨rfl, lengthWithin_mono (s := s) hlen (Nat.zero_le _)⟩) rfl

theorem inv_rxPay (b : Byte) (hinv : inv s = true) (hp : s.phase = .decPay) : inv (s.rxPay b) = true := by
  obtain ⟨hwf, -, hseq, -⟩ := (inv_iff s).1 hinv
  have hs : s.phase ≠ .idle := by simp [hp]
  have hwf' := Memory.wf_write s.pbuf s.idx.toNat b s.idx.isLt hwf
  simp only [sequencerLegal, hp, Bool.and_eq_true, decide_eq_true_eq] at hseq
  obtain ⟨hidx, hlen⟩ := hseq
  simp only [State.rxPay]
  split
  · have bound := sequenceLength_le hlen
    have next := idx_succ_toNat (show s.idx.toNat < 127 by omega)
    refine inv_of_running hinv hs hs ⟨rfl, rfl, rfl⟩ hwf' ?_ (by simp [markerLegal, hp])
    simp only [sequencerLegal, State.subtract_phase, hp, next, Bool.and_eq_true, decide_eq_true_eq]
    exact ⟨by omega, lengthWithin_of_le (s := s) hlen (by omega)⟩
  · exact inv_of_running hinv hs (by simp) ⟨rfl, rfl, rfl⟩ hwf'
      (Bool.and_eq_true_iff.2 ⟨rfl, lengthWithin_mono (s := s) hlen (Nat.zero_le _)⟩) rfl

theorem settleOffset_pbuf (s : State) : s.settleOffset.pbuf = s.pbuf := by
  unfold State.settleOffset
  split <;> rfl

theorem inv_rxCk (b : Byte) (hinv : inv s = true) : inv (s.rxCk b) = true := by
  obtain ⟨hwf, -, -, -⟩ := (inv_iff s).1 hinv
  obtain ⟨-, e⟩ | ⟨-, e⟩ := State.rxCk_cases b s
  · exact e ▸ inv_completeOk ((congrArg Memory.wf (settleOffset_pbuf _)).trans hwf)
  · exact e ▸ inv_decodeFail .checksum hwf

theorem inv_rxByte (b : Byte) (hinv : inv s = true) : inv (s.rxByte b) = true := by
  cases hp : s.phase with
  | decHdr => simpa only [State.rxByte, hp] using inv_rxHdr b hinv hp
  | decOfs => simpa only [State.rxByte, hp] using inv_rxOfs b hinv hp
  | decPay => simpa only [State.rxByte, hp] using inv_rxPay b hinv hp
  | decCk => simpa only [State.rxByte, hp] using inv_rxCk b hinv
  | idle | encHdr | encPay | encCk => simpa only [State.rxByte, hp] using hinv

theorem inv_rxEos (hinv : inv s = true) : inv s.rxEos = true := by
  cases hr : s.rxReady with
  | true => exact State.rxEos_of_ready hr ▸ inv_decodeFail .short ((inv_iff s).1 hinv).1
  | false => rwa [State.rxEos_of_not_ready hr]

theorem inv_rxOffer (hinv : inv s = true) : inv s.rxOffer = true := by
  obtain ⟨-, e⟩ | ⟨b, rest, -, -, e⟩ | ⟨b, rest, -, -, e⟩ | ⟨rest, -, e⟩ := State.rxOffer_cases s
  · rwa [e]
  · rwa [e]
  · exact e ▸ inv_rxByte b (s := { s with rx := rest }) hinv
  · exact e ▸ inv_rxEos (s := { s with rx := rest }) hinv

end

/-! ## The invariant's theorems -/

/-- Settles O60: idle, an empty buffer and clear flags. -/
theorem resetHasInvariant : Obligations.ResetHasInvariant :=
  inv_of_idle rfl rfl Memory.wf_nil (by decide)

/-- Settles O59, by the event of the step; taking it from the agenda touches none of the invariant's registers. -/
theorem stepKeepsInvariant : Obligations.StepKeepsInvariant := by
  intro s t hinv h
  obtain ⟨-, rfl⟩ | ⟨rest, taken, rfl, ⟨w, -, he⟩ | ⟨-, rfl⟩ | ⟨-, rfl⟩ | ⟨-, rfl⟩⟩ := step_cases h
  · exact hinv
  · exact inv_exec (s := { s with agenda := rest, tick := s.tick + 1 }) hinv he
  · exact inv_txAccept (s := { s with agenda := rest, tick := s.tick + 1 }) hinv
  · exact inv_rxOffer (s := { s with agenda := rest, tick := s.tick + 1 }) hinv
  · exact resetHasInvariant

/-- A failure's byte is `0x04 | (ERR << 4)` (R171). -/
theorem State.statusByte_of_fail {s : State} (hp : s.phase = .idle) (hok : s.ok = false) (hfail : s.fail = true) :
    s.statusByte = 0x04 ||| (BitVec.ofNat 8 s.err.toNat <<< 4) := by
  simp only [State.statusByte, State.busy_eq_false hp, hok, hfail]
  generalize s.err = e
  revert e
  decide

/-- Settles O44: clear flags read 0x00 or 0x01, `OK` reads 0x02, and `FAIL` has a code that is neither 0 nor 7. -/
theorem statusValuesAreLegal : Obligations.StatusValuesAreLegal := by
  intro s hinv
  obtain ⟨-, hstatus, -, -⟩ := (inv_iff s).1 hinv
  obtain ⟨hboth, hrunning, herr, hseven⟩ := (statusLegal_iff s).1 hstatus
  cases hfail : s.fail with
  | false =>
    have no_code : s.err = 0 := by simpa [hfail] using herr
    by_cases hp : s.phase = .idle
    · cases hok : s.ok with
      | false => exact .inl (State.statusByte_eq_zero hp hok hfail no_code)
      | true => exact .inr (.inr (.inl (State.statusByte_of_ok hp hok hfail no_code)))
    · exact .inr (.inl (State.statusByte_of_running hp (hrunning hp).1 hfail no_code))
  | true =>
    have hok : s.ok = false := by simpa [hfail] using hboth
    have hp : s.phase = .idle := by
      by_contra hp
      simp [(hrunning hp).2] at hfail
    have code : 1 ≤ s.err.toNat ∧ s.err.toNat ≤ 6 := by
      have : s.err ≠ 0 := herr.1 hfail
      bv_omega
    exact .inr (.inr (.inr ⟨s.err.toNat, code.1, code.2, State.statusByte_of_fail hp hok hfail⟩))

end Sys2Proof.Machine
end

section
/-! PROOF. A starved command hangs (spec/70_reset_and_hazards.md R238). -/

namespace Sys2Proof.Machine

open Sys2Proof.Safety

/-- Where the block presents a byte, and where it is ready for one, is a matter of the phase alone. -/
theorem State.txReg_eq_none_congr {s t : State} (h : t.phase = s.phase) : t.txReg = none ↔ s.txReg = none := by
  cases hp : s.phase <;> simp [State.txReg, h, hp]

/-- A command runs, no `Reset` is to come, and neither stream gives the block an event that it takes. -/
structure Starved (s : State) : Prop where
  running : s.phase ≠ .idle
  noReset : .reset ∉ s.agenda
  noAccept : s.txReg = none ∨ .txAccept ∉ s.agenda
  noOffer : s.rxReady = false ∨ s.rx = []

/-- Nothing of the command has moved. -/
structure StillAt (s t : State) : Prop where
  phase : t.phase = s.phase
  idx : t.idx = s.idx
  tx : t.tx = s.tx
  rx : s.rx = [] → t.rx = []
  agenda : t.agenda ⊆ s.agenda

theorem StillAt.refl (s : State) : StillAt s s := ⟨rfl, rfl, rfl, id, List.Subset.refl _⟩

theorem StillAt.trans {s t u : State} (h : StillAt s t) (h' : StillAt t u) : StillAt s u :=
  ⟨h'.phase.trans h.phase, h'.idx.trans h.idx, h'.tx.trans h.tx, h'.rx ∘ h.rx, List.Subset.trans h'.agenda h.agenda⟩

/-- A command that has not moved is still starved. -/
theorem Starved.of_stillAt {s t : State} (h : Starved s) (hst : StillAt s t) : Starved t where
  running := by rw [hst.phase]; exact h.running
  noReset := fun hmem => h.noReset (hst.agenda hmem)
  noAccept := h.noAccept.imp (State.txReg_eq_none_congr hst.phase).2 fun hno hmem => hno (hst.agenda hmem)
  noOffer := h.noOffer.imp (fun hr => by rw [State.rxReady_congr hst.phase, hr]) hst.rx

/-- No host access moves a running command; a guarded write among them by the reading of log 5. -/
theorem exec_stillAt {i : Instr} {s t : State} (hp : s.phase ≠ .idle) (h : exec i s = .next t) : StillAt s t := by
  obtain ⟨-, ⟨b, rfl⟩ | rfl⟩ | ⟨-, rfl⟩ := exec_busy_cases hp h <;> exact ⟨rfl, rfl, rfl, id, List.Subset.refl _⟩

theorem State.rxOffer_stillAt {s : State} (h : s.rxReady = false ∨ s.rx = []) : StillAt s s.rxOffer := by
  by_cases hrx : s.rx = []
  · rw [State.rxOffer_of_empty hrx]
    exact .refl s
  · obtain ⟨rx, e⟩ := State.rxOffer_of_not_ready (h.resolve_right hrx)
    rw [e]
    exact ⟨rfl, rfl, rfl, fun h => absurd h hrx, List.Subset.refl _⟩

/-- A step of a starved command. -/
theorem step_stillAt {s t : State} (hs : Starved s) (h : step s = .next t) : StillAt s t := by
  obtain ⟨-, rfl⟩ | ⟨rest, taken, htaken, hevent⟩ := step_cases h
  · exact .refl _
  · have head_taken {e : Event} (ha : s.agenda = e :: rest) : StillAt s taken := by
      subst htaken
      exact ⟨rfl, rfl, rfl, id, by simp [ha]⟩
    obtain ⟨w, ha, he⟩ | ⟨ha, rfl⟩ | ⟨ha, rfl⟩ | ⟨ha, -⟩ := hevent
    · have still := head_taken ha
      exact still.trans (exec_stillAt (hs.of_stillAt still).running he)
    · have still := head_taken ha
      have none_presented : taken.txReg = none :=
        (State.txReg_eq_none_congr still.phase).2 (hs.noAccept.resolve_right (by simp [ha]))
      rwa [State.txAccept_of_none none_presented]
    · have still := head_taken ha
      exact still.trans (State.rxOffer_stillAt (hs.of_stillAt still).noOffer)
    · exact absurd (by simp [ha]) hs.noReset

/-- A run of a starved command, by induction on the number of steps. -/
theorem run_stillAt (k : Nat) {s t : State} (hs : Starved s) (h : Host.Core.run Sys2Proof.core k s = .next t) :
    StillAt s t := by
  induction k generalizing s with
  | zero =>
    cases h
    exact .refl _
  | succ k ih =>
    obtain ⟨u, hu⟩ := step_next s
    rw [run_succ k hu] at h
    have still := step_stillAt hs hu
    exact still.trans (ih (hs.of_stillAt still) h)

/-- Settles O56: an encode takes no offer and a decode presents no byte, so either is starved as the statement says. -/
theorem starvedCommandHangs : Obligations.StarvedCommandHangs := by
  intro k s t hreset hrun
  refine ⟨fun htx haccept => ?_, fun hready hrx => ?_⟩
  · have encoding : s.phase ≠ .idle ∧ s.rxReady = false := by
      cases hp : s.phase <;> simp_all [State.txReg, State.rxReady]
    have still := run_stillAt k ⟨encoding.1, hreset, .inr haccept, .inl encoding.2⟩ hrun
    exact ⟨still.phase, still.idx, still.tx⟩
  · have decoding : s.phase ≠ .idle ∧ s.txReg = none := by
      cases hp : s.phase <;> simp_all [State.txReg, State.rxReady]
    have still := run_stillAt k ⟨decoding.1, hreset, .inl decoding.2, .inr hrx⟩ hrun
    exact ⟨still.phase, still.idx, still.rx hrx⟩

end Sys2Proof.Machine
end

section
/-! PROOF. Clean runs keep what a running command's sequencing rests on (spec/10_state.md R30;
spec/92_eei_decisions.md D36). -/

namespace Sys2Proof.Machine

open Sys2Proof.Safety

/-! ## The registers a phase rests on -/

theorem Reg.exists_val {r : Reg} (h : r ≠ .unspec) : ∃ b, r = .val b := by
  cases r with
  | unspec => exact absurd rfl h
  | val b => exact ⟨b, rfl⟩

section

variable {s t : State} {i : Instr}

theorem definedRunning_of_idle (hp : s.phase = .idle) : definedRunning s = true := by
  simp [definedRunning, hp]

theorem definedRunning_encHdr (hp : s.phase = .encHdr) : definedRunning s = true ↔ s.hdr.length ≠ .unspec := by
  simp [definedRunning, hp]

theorem definedRunning_encPay (hp : s.phase = .encPay) : definedRunning s = true ↔ s.hdr.length ≠ .unspec := by
  simp [definedRunning, hp]

theorem definedRunning_decHdr (hp : s.phase = .decHdr) :
    definedRunning s = true ↔ s.acc ≠ .unspec ∧ (s.idx = 0 ∨ s.hdr.start ≠ .unspec) := by
  simp [definedRunning, hp]

/-- After the header check a decode rests on `ACC` and the length. -/
theorem definedRunning_decBody (hp : s.phase = .decOfs ∨ s.phase = .decPay ∨ s.phase = .decCk) :
    definedRunning s = true ↔ s.acc ≠ .unspec ∧ s.hdr.length ≠ .unspec := by
  obtain hp | hp | hp := hp <;> simp [definedRunning, hp]

/-! ## Host accesses -/

/-- A clean guarded write finds the block idle, and a clean encode finds the length defined. -/
theorem clean_guardedWrite (hc : accessFault i s = false) (hg : isGuardedWrite i = true) : s.phase = .idle := by
  obtain ⟨hwrite, -, -⟩ := (accessFault_eq_false_iff i s).1 hc
  simpa [State.busy] using hwrite hg

theorem clean_encode (hc : accessFault i s = false) (hi : isEncode i = true) : s.hdr.length ≠ .unspec := by
  obtain ⟨-, hencode, -⟩ := (accessFault_eq_false_iff i s).1 hc
  exact hencode hi

theorem StoreEffect.phase (h : StoreEffect s t) : t.phase = s.phase := by
  cases h <;> rfl

/-- A command that starts from a defined length, or that is no encode, rests on defined registers. -/
theorem CommandEffect.definedRunning (h : CommandEffect i s t) (hlen : isEncode i = true → s.hdr.length ≠ .unspec) :
    Safety.definedRunning t = true := by
  cases h with
  | clear | reserved => exact definedRunning_of_idle rfl
  | decode => exact (definedRunning_decHdr rfl).2 ⟨by simp, .inl rfl⟩
  | encode p hi =>
    obtain ⟨_, -, ⟨-, e⟩ | ⟨-, -, -, e⟩ | ⟨-, -, e⟩⟩ := State.acceptEncode_cases p s
    · exact e ▸ definedRunning_of_idle rfl
    · exact e ▸ definedRunning_of_idle rfl
    · exact e ▸ (definedRunning_encHdr rfl).2 (hlen hi)

/-- A clean access: a guarded write finds the block idle, and any other leaves the registers alone. -/
theorem definedRunning_exec (hd : definedRunning s = true) (hc : accessFault i s = false) (h : exec i s = .next t) :
    definedRunning t = true := by
  cases exec_cases h with
  | read | ignored => exact hd
  | command _ _ hguard heffect =>
    rw [State.guardedWrite_idle _ (clean_guardedWrite hc hguard)]
    exact heffect.definedRunning (clean_encode hc)
  | store _ _ hguard heffect =>
    have hp := clean_guardedWrite hc hguard
    rw [State.guardedWrite_idle _ hp]
    exact definedRunning_of_idle (heffect.phase.trans hp)

/-! ## Transmit steps -/

theorem definedRunning_afterTx (r : Reg) (hd : definedRunning s = true) : definedRunning (s.afterTx r) = true := by
  cases hp : s.phase with
  | encHdr =>
    have hlen := (definedRunning_encHdr hp).1 hd
    rw [State.afterTx_encHdr r hp, State.afterTxHdr]
    split_ifs
    · exact (definedRunning_encHdr (s := { s.subtract r with idx := _ }) hp).2 hlen
    · rfl
    · exact (definedRunning_encPay rfl).2 hlen
  | encPay =>
    have hlen := (definedRunning_encPay hp).1 hd
    rw [State.afterTx_encPay r hp, State.afterTxPay]
    split_ifs
    · exact (definedRunning_encPay (s := { s.subtract r with idx := _ }) hp).2 hlen
    · rfl
  | encCk =>
    rw [State.afterTx_encCk r hp]
    exact definedRunning_of_idle rfl
  | idle | decHdr | decOfs | decPay | decCk => simpa only [State.afterTx, hp] using hd

theorem definedRunning_txAccept (hd : definedRunning s = true) : definedRunning s.txAccept = true := by
  obtain ⟨-, e⟩ | ⟨r, b, -, -, e⟩ := State.txAccept_cases s
  · rwa [e]
  · rw [e]
    exact definedRunning_afterTx (s := { s with tx := s.tx ++ [b] }) r hd

/-! ## Receive steps -/

theorem Reg.minus_val_ne_unspec {r : Reg} (b : Byte) (h : r ≠ .unspec) : r.minus (.val b) ≠ .unspec := by
  obtain ⟨a, rfl⟩ := Reg.exists_val h
  simp

/-- Storing header bytes in order keeps `HDR[0]` defined from the first one on (R141). -/
theorem Header.start_of_stored {h : Header} {n : Nat} (b : Byte) (hn : n = 0 ∨ h.start ≠ .unspec) :
    (h.set (hdrFieldOf n) (.val b)).start ≠ .unspec := by
  match n with
  | 0 => simp [hdrFieldOf]
  | 1 | 2 | 3 | 4 | n + 5 => simpa [hdrFieldOf] using hn

/-- From byte 5 on it is the length that is stored, and `HDR[0]` stays (R141; log 15). -/
theorem Header.set_last (h : Header) {n : Nat} (r : Reg) (hn : 5 ≤ n) :
    h.set (hdrFieldOf n) r = { h with length := r } := by
  obtain ⟨m, rfl⟩ : ∃ m, n = m + 5 := ⟨n - 5, by omega⟩
  rfl

/-- The header check ends the decode or goes on to the body with the registers as they are. -/
theorem definedRunning_headerCheck (hacc : s.acc ≠ .unspec) (hlen : s.hdr.length ≠ .unspec) :
    definedRunning s.headerCheck = true := by
  obtain ⟨_, _, -, -, ⟨-, e⟩ | ⟨-, -, e⟩ | ⟨-, -, e⟩⟩ := State.headerCheck_cases s
  · exact e ▸ definedRunning_of_idle rfl
  · exact e ▸ definedRunning_of_idle rfl
  · rw [e, State.selectBody]
    refine (definedRunning_decBody ?_).2 ⟨hacc, hlen⟩
    by_cases h : 2 ≤ s.sequenceLength <;> simp [h]

theorem definedRunning_rxHdr (b : Byte) (hp : s.phase = .decHdr) (hd : definedRunning s = true) :
    definedRunning (s.rxHdr b) = true := by
  obtain ⟨hacc, hstart⟩ := (definedRunning_decHdr hp).1 hd
  have acc_kept := Reg.minus_val_ne_unspec b hacc
  unfold State.rxHdr
  by_cases hi : s.idx.toNat < 5
  · have start_kept := Header.start_of_stored (n := s.idx.toNat) b (hstart.imp_left (by simp +contextual))
    simp only [if_pos hi]
    refine (definedRunning_decHdr ?_).2 ⟨acc_kept, .inr start_kept⟩
    exact hp
  · simp only [if_neg hi, Header.set_last _ _ (Nat.le_of_not_lt hi)]
    exact definedRunning_headerCheck acc_kept (by simp)

theorem definedRunning_rxOfs (b : Byte) (hp : s.phase = .decOfs) (hd : definedRunning s = true) :
    definedRunning (s.rxOfs b) = true := by
  obtain ⟨hacc, hlen⟩ := (definedRunning_decBody (.inl hp)).1 hd
  have acc_kept := Reg.minus_val_ne_unspec b hacc
  simp only [State.rxOfs]
  split
  · refine (definedRunning_decBody (.inl ?_)).2 ⟨acc_kept, hlen⟩
    exact hp
  · refine (definedRunning_decBody ?_).2 ⟨acc_kept, hlen⟩
    by_cases h : 2 < s.sequenceLength <;> simp [h]

theorem definedRunning_rxPay (b : Byte) (hp : s.phase = .decPay) (hd : definedRunning s = true) :
    definedRunning (s.rxPay b) = true := by
  obtain ⟨hacc, hlen⟩ := (definedRunning_decBody (.inr (.inl hp))).1 hd
  have acc_kept := Reg.minus_val_ne_unspec b hacc
  simp only [State.rxPay]
  split
  · refine (definedRunning_decBody (.inr (.inl ?_))).2 ⟨acc_kept, hlen⟩
    exact hp
  · exact (definedRunning_decBody (.inr (.inr rfl))).2 ⟨acc_kept, hlen⟩

theorem definedRunning_rxCk (b : Byte) (s : State) : definedRunning (s.rxCk b) = true := by
  obtain ⟨-, e⟩ | ⟨-, e⟩ := State.rxCk_cases b s
  · exact e ▸ definedRunning_of_idle rfl
  · exact e ▸ definedRunning_of_idle rfl

theorem definedRunning_rxByte (b : Byte) (hd : definedRunning s = true) : definedRunning (s.rxByte b) = true := by
  cases hp : s.phase with
  | decHdr => simpa only [State.rxByte, hp] using definedRunning_rxHdr b hp hd
  | decOfs => simpa only [State.rxByte, hp] using definedRunning_rxOfs b hp hd
  | decPay => simpa only [State.rxByte, hp] using definedRunning_rxPay b hp hd
  | decCk => simpa only [State.rxByte, hp] using definedRunning_rxCk b s
  | idle | encHdr | encPay | encCk => simpa only [State.rxByte, hp] using hd

theorem definedRunning_rxOffer (hd : definedRunning s = true) : definedRunning s.rxOffer = true := by
  obtain ⟨-, e⟩ | ⟨b, rest, -, -, e⟩ | ⟨b, rest, -, -, e⟩ | ⟨rest, -, e⟩ := State.rxOffer_cases s
  · rwa [e]
  · rwa [e]
  · exact e ▸ definedRunning_rxByte (s := { s with rx := rest }) b hd
  · rw [e]
    cases hr : s.rxReady with
    | true =>
      rw [State.rxEos_of_ready (s := { s with rx := rest }) hr]
      exact definedRunning_of_idle rfl
    | false =>
      rw [State.rxEos_of_not_ready (s := { s with rx := rest }) hr]
      exact hd

/-! ## Clean steps and runs -/

theorem definedRunning_step (hd : definedRunning s = true) (hc : programFault s = false) (h : step s = .next t) :
    definedRunning t = true := by
  obtain ⟨-, rfl⟩ | ⟨rest, taken, rfl, ⟨w, ha, he⟩ | ⟨-, rfl⟩ | ⟨-, rfl⟩ | ⟨-, rfl⟩⟩ := step_cases h
  · exact hd
  · rw [programFault_host ha] at hc
    exact definedRunning_exec (s := { s with agenda := rest, tick := s.tick + 1 }) hd hc he
  · exact definedRunning_txAccept (s := { s with agenda := rest, tick := s.tick + 1 }) hd
  · exact definedRunning_rxOffer (s := { s with agenda := rest, tick := s.tick + 1 }) hd
  · exact definedRunning_of_idle rfl

end

/-- Settles O57, by induction on the number of steps. -/
theorem cleanRunStaysDefined : Obligations.CleanRunStaysDefined := by
  intro k
  induction k with
  | zero =>
    intro s t hd _ h
    cases h
    exact hd
  | succ k ih =>
    intro s t hd hclean h
    obtain ⟨u, hu⟩ := step_next s
    rw [run_succ k hu] at h
    simp only [cleanRun, hu, Bool.and_eq_true, Bool.not_eq_true'] at hclean
    obtain ⟨hfault, hrest⟩ := hclean
    exact ih u t (definedRunning_step hd hfault hu) hrest h

end Sys2Proof.Machine
end

section
/-! PROOF. The free values and a clean step (logs 2, 6, 7; spec/10_state.md R30, spec/41_frame_encode.md R121): the free
values are indexed by the event count, and where nothing `UNSPEC` is used each operation is the same at any count. -/

namespace Sys2Proof.Machine

open Sys2Proof.Safety

/-- The state with the free values of the event count `n`. -/
def State.atTick (s : State) (n : Nat) : State := { s with tick := n }

/-! ## Host accesses -/

section

variable {s t : State} {r : Reg} {b : Byte} (n : Nat)

theorem guardedWrite_atTick {u : State} (hu : u = t.atTick n) :
    (s.atTick n).guardedWrite u = (s.guardedWrite t).atTick n := by
  subst hu
  obtain ⟨hp, e⟩ | ⟨hp, e⟩ := State.guardedWrite_cases s t
  · rw [e, State.guardedWrite_idle (s := s.atTick n) _ hp]
  · rw [e, State.guardedWrite_busy (s := s.atTick n) _ hp]
    rfl

/-- A clean read of a register sees the register alone. -/
theorem returnReg_atTick (hp : s.phase = .idle) (hr : r ≠ .unspec) :
    (s.atTick n).returnReg r = (s.returnReg r).atTick n := by
  obtain ⟨b, rfl⟩ := Reg.exists_val hr
  rw [State.returnReg_of_idle hp, State.returnReg_of_idle (s := s.atTick n) hp]
  rfl

/-- A clean access other than an encode is the same at any event count. -/
theorem exec_atTick {i : Instr} (hc : accessFault i s = false) (hi : isEncode i = false) (h : exec i s = .next t) :
    exec i (s.atTick n) = .next (t.atTick n) := by
  obtain ⟨-, -, hread⟩ := (accessFault_eq_false_iff i s).1 hc
  cases hr : readRegister i s with
  | some r =>
    obtain ⟨idle, defined⟩ := hread r hr
    have hp : s.phase = .idle := by simpa [State.busy] using idle
    have hr' : readRegister i (s.atTick n) = some r := by rw [← hr]; cases i <;> rfl
    rw [exec_of_readRegister hr] at h
    obtain rfl := Host.Outcome.next.inj h
    rw [exec_of_readRegister hr', returnReg_atTick n hp defined]
  | none =>
    cases i
    case enc | encP => cases hi
    case ckclr | dec | ctrlRsvd | ckbyte | wrHdrStart | wrHdrDevice | wrHdrAddress | wrHdrCommand | wrHdrItem
        | wrHdrLength | wrPbuf =>
      obtain rfl := Host.Outcome.next.inj h
      exact congrArg Host.Outcome.next (guardedWrite_atTick n rfl)
    case wrStatus | wrAcc | wrRxck | wrRsvd | wrOfsLo | wrOfsHi | rdCtrl | rdStatus | rdCkdata | rdRsvd =>
      obtain rfl := Host.Outcome.next.inj h
      rfl
    all_goals cases hr

/-- A clean encode starts alike, or fails alike but for `HDR[0]` (R121). -/
theorem acceptEncode_atTick (p : Bool) (hl : s.hdr.length = .val b) :
    ∃ start, (s.atTick n).acceptEncode p =
        { (s.acceptEncode p).atTick n with hdr := { (s.acceptEncode p).hdr with start := start } } ∧
      (start = (s.acceptEncode p).hdr.start ∨ (s.acceptEncode p).fail = true) := by
  by_cases hlong : Config.maxPayload < b.toNat
  · rw [State.acceptEncode_of_long p hl hlong, State.acceptEncode_of_long (s := s.atTick n) p hl hlong]
    exact ⟨_, rfl, .inr rfl⟩
  · have hshort : b.toNat ≤ Config.maxPayload := Nat.le_of_not_lt hlong
    by_cases hpay : p = true ∨ b = 0
    · rw [State.acceptEncode_of_legal hl hshort hpay, State.acceptEncode_of_legal (s := s.atTick n) hl hshort hpay]
      exact ⟨_, rfl, .inl rfl⟩
    · obtain ⟨hp, hb⟩ := not_or.1 hpay
      obtain rfl : p = false := by simpa using hp
      have hpos : 0 < b.toNat := by bv_omega
      rw [State.acceptEncode_of_no_payload hl hpos hshort,
        State.acceptEncode_of_no_payload (s := s.atTick n) hl hpos hshort]
      exact ⟨_, rfl, .inr rfl⟩

theorem exec_encode_atTick {i : Instr} (hi : i = .enc ∨ i = .encP) (hp : s.phase = .idle)
    (hl : s.hdr.length ≠ .unspec) (h : exec i s = .next t) :
    ∃ start, exec i (s.atTick n) = .next { t.atTick n with hdr := { t.hdr with start := start } } ∧
      (start = t.hdr.start ∨ t.fail = true) := by
  obtain ⟨b, hb⟩ := Reg.exists_val hl
  obtain rfl | rfl := hi
  · obtain ⟨start, e, hstart⟩ := acceptEncode_atTick n false hb
    rw [exec_enc_idle hp] at h
    obtain rfl := Host.Outcome.next.inj h
    exact ⟨start, by rw [exec_enc_idle (s := s.atTick n) hp, e], hstart⟩
  · obtain ⟨start, e, hstart⟩ := acceptEncode_atTick n true hb
    rw [exec_encP_idle hp] at h
    obtain rfl := Host.Outcome.next.inj h
    exact ⟨start, by rw [exec_encP_idle (s := s.atTick n) hp, e], hstart⟩

/-! ## Stream steps -/

/-- A defined length sequences alike. -/
theorem sequenceLength_atTick (hl : s.hdr.length ≠ .unspec) : (s.atTick n).sequenceLength = s.sequenceLength := by
  obtain ⟨b, hb⟩ := Reg.exists_val hl
  rw [State.sequenceLength_val hb, State.sequenceLength_val (s := s.atTick n) hb]

theorem afterTxHdr_atTick (hl : s.hdr.length ≠ .unspec) : (s.atTick n).afterTxHdr = s.afterTxHdr.atTick n := by
  rw [State.afterTxHdr, State.afterTxHdr, sequenceLength_atTick n hl]
  change (if s.idx.toNat < 5 then _ else _) = _
  split_ifs <;> rfl

theorem afterTxPay_atTick (hl : s.hdr.length ≠ .unspec) : (s.atTick n).afterTxPay = s.afterTxPay.atTick n := by
  rw [State.afterTxPay, State.afterTxPay, sequenceLength_atTick n hl]
  change (if s.idx.toNat + 1 < _ then _ else _) = _
  split_ifs <;> rfl

theorem afterTx_atTick (hd : definedRunning s = true) : (s.atTick n).afterTx r = (s.afterTx r).atTick n := by
  cases hp : s.phase with
  | encHdr =>
    rw [State.afterTx_encHdr r hp, State.afterTx_encHdr (s := s.atTick n) r hp]
    exact afterTxHdr_atTick (s := s.subtract r) n ((definedRunning_encHdr hp).1 hd)
  | encPay =>
    rw [State.afterTx_encPay r hp, State.afterTx_encPay (s := s.atTick n) r hp]
    exact afterTxPay_atTick (s := s.subtract r) n ((definedRunning_encPay hp).1 hd)
  | encCk =>
    rw [State.afterTx_encCk r hp, State.afterTx_encCk (s := s.atTick n) r hp]
    rfl
  | idle | decHdr | decOfs | decPay | decCk => simp only [State.afterTx, State.atTick, hp]

/-- A clean acceptance sends the register's own byte. -/
theorem txAccept_atTick (hd : definedRunning s = true) (hc : s.txReg ≠ some .unspec) :
    (s.atTick n).txAccept = s.txAccept.atTick n := by
  have presented : (s.atTick n).txReg = s.txReg := rfl
  obtain ⟨none_presented, e⟩ | ⟨r, b, hr, hb, e⟩ := State.txAccept_cases s
  · rw [e, State.txAccept_of_none (presented.trans none_presented)]
  · obtain ⟨x, rfl⟩ : ∃ x, r = .val x := Reg.exists_val fun h => hc (hr.trans (congrArg some h))
    obtain ⟨none_presented, -⟩ | ⟨r', b', hr', hb', e'⟩ := State.txAccept_cases (s.atTick n)
    · simp [presented, hr] at none_presented
    · obtain rfl : r' = .val x := by simpa [presented, hr, eq_comm] using hr'
      rw [e, e', hb x rfl, hb' x rfl]
      exact afterTx_atTick (s := { s with tx := s.tx ++ [x] }) n hd

theorem headerCheck_atTick (hm : s.hdr.start ≠ .unspec) (hl : s.hdr.length ≠ .unspec) :
    (s.atTick n).headerCheck = s.headerCheck.atTick n := by
  obtain ⟨start, hm⟩ := Reg.exists_val hm
  obtain ⟨len, hl⟩ := Reg.exists_val hl
  rw [State.headerCheck_eq hm hl, State.headerCheck_eq (s := s.atTick n) hm hl]
  split_ifs <;> rfl

theorem rxHdr_atTick (hp : s.phase = .decHdr) (hd : definedRunning s = true) :
    (s.atTick n).rxHdr b = (s.rxHdr b).atTick n := by
  obtain ⟨-, hstart⟩ := (definedRunning_decHdr hp).1 hd
  have same_idx : (s.atTick n).idx = s.idx := rfl
  simp only [State.rxHdr, same_idx]
  by_cases hi : s.idx.toNat < 5
  · simp only [if_pos hi]
    rfl
  · simp only [if_neg hi, Header.set_last _ _ (Nat.le_of_not_lt hi)]
    have start_defined : s.hdr.start ≠ .unspec := hstart.resolve_left fun h => by simp [h] at hi
    exact headerCheck_atTick (s := State.subtract (.val b) { s with hdr := { s.hdr with length := .val b } }) n
      start_defined (by simp)

theorem rxOfs_atTick (hl : s.hdr.length ≠ .unspec) : (s.atTick n).rxOfs b = (s.rxOfs b).atTick n := by
  have same_idx : (s.atTick n).idx = s.idx := rfl
  simp only [State.rxOfs, sequenceLength_atTick n hl, same_idx]
  split_ifs <;> rfl

theorem rxPay_atTick (hl : s.hdr.length ≠ .unspec) : (s.atTick n).rxPay b = (s.rxPay b).atTick n := by
  have same_idx : (s.atTick n).idx = s.idx := rfl
  simp only [State.rxPay, sequenceLength_atTick n hl, same_idx]
  split_ifs <;> rfl

theorem rxCk_atTick (hacc : s.acc ≠ .unspec) (hl : s.hdr.length ≠ .unspec) :
    (s.atTick n).rxCk b = (s.rxCk b).atTick n := by
  obtain ⟨a, hacc⟩ := Reg.exists_val hacc
  obtain ⟨len, hl⟩ := Reg.exists_val hl
  by_cases hab : a = b
  · subst hab
    rw [State.rxCk_of_eq hacc hl, State.rxCk_of_eq (s := s.atTick n) hacc hl]
    rfl
  · rw [State.rxCk_of_ne hacc hab, State.rxCk_of_ne (s := s.atTick n) hacc hab]
    rfl

theorem rxByte_atTick (b : Byte) (hd : definedRunning s = true) : (s.atTick n).rxByte b = (s.rxByte b).atTick n := by
  have same_phase : (s.atTick n).phase = s.phase := rfl
  cases hp : s.phase with
  | decHdr => simpa only [State.rxByte, same_phase, hp] using rxHdr_atTick n hp hd
  | decOfs =>
    obtain ⟨-, hl⟩ := (definedRunning_decBody (.inl hp)).1 hd
    simpa only [State.rxByte, same_phase, hp] using rxOfs_atTick n hl
  | decPay =>
    obtain ⟨-, hl⟩ := (definedRunning_decBody (.inr (.inl hp))).1 hd
    simpa only [State.rxByte, same_phase, hp] using rxPay_atTick n hl
  | decCk =>
    obtain ⟨hacc, hl⟩ := (definedRunning_decBody (.inr (.inr hp))).1 hd
    simpa only [State.rxByte, same_phase, hp] using rxCk_atTick n hacc hl
  | idle | encHdr | encPay | encCk => simp only [State.rxByte, same_phase, hp]

theorem rxEos_atTick (s : State) : (s.atTick n).rxEos = s.rxEos.atTick n := by
  cases hr : s.rxReady with
  | true =>
    rw [State.rxEos_of_ready hr, State.rxEos_of_ready (s := s.atTick n) hr]
    rfl
  | false => rw [State.rxEos_of_not_ready hr, State.rxEos_of_not_ready (s := s.atTick n) hr]

theorem rxOffer_atTick (hd : definedRunning s = true) : (s.atTick n).rxOffer = s.rxOffer.atTick n := by
  have same_rx : (s.atTick n).rx = s.rx := rfl
  have same_ready : (s.atTick n).rxReady = s.rxReady := rfl
  cases hrx : s.rx with
  | nil => rw [State.rxOffer_of_empty hrx, State.rxOffer_of_empty (same_rx.trans hrx)]
  | cons e rest =>
    simp only [State.rxOffer, same_rx, same_ready, hrx]
    cases e with
    | eos => exact rxEos_atTick n { s with rx := rest }
    | byte b =>
      cases hr : s.rxReady with
      | true => exact rxByte_atTick (s := { s with rx := rest }) n b hd
      | false => rfl

end

/-! ## The step -/

/-- A step with the free values of another event takes the same event. -/
theorem step_tick_cons {s : State} {e : Event} {rest : List Event} (n : Nat) (ha : s.agenda = e :: rest) :
    step { s with tick := n } =
      performEvent e (State.atTick { s with agenda := rest, tick := s.tick + 1 } (n + 1)) :=
  step_cons (s := { s with tick := n }) ha

/-- A clean step: the same state at another count, or an encode that fails alike but for `HDR[0]`. -/
theorem clean_step_atTick {s t : State} (n : Nat) (hd : definedRunning s = true) (hc : programFault s = false)
    (h : step s = .next t) :
    ∃ m start, step { s with tick := n } = .next { t.atTick m with hdr := { t.hdr with start := start } } ∧
      (start = t.hdr.start ∨ (t.fail = true ∧ s.phase = .idle ∧
        ∃ w rest, s.agenda = .host w :: rest ∧ (decode w = .enc ∨ decode w = .encP))) := by
  obtain ⟨ha, rfl⟩ | ⟨rest, taken, htaken, hevent⟩ := step_cases h
  · exact ⟨n, t.hdr.start, step_empty (s := { t with tick := n }) ha, .inl rfl⟩
  · have hd' : definedRunning taken = true := by subst htaken; exact hd
    obtain ⟨w, ha, he⟩ | ⟨ha, rfl⟩ | ⟨ha, rfl⟩ | ⟨ha, rfl⟩ := hevent
    · rw [step_tick_cons n ha, ← htaken]
      rw [programFault_host ha, ← htaken] at hc
      cases hi : isEncode (decode w) with
      | false =>
        have same := exec_atTick (n + 1) hc hi he
        exact ⟨n + 1, t.hdr.start, same, .inl rfl⟩
      | true =>
        have encodes : decode w = .enc ∨ decode w = .encP := by simpa [isEncode] using hi
        have hp : taken.phase = .idle := clean_guardedWrite hc (by obtain e | e := encodes <;> rw [e] <;> rfl)
        obtain ⟨start, e, hstart⟩ := exec_encode_atTick (n + 1) encodes hp (clean_encode hc hi) he
        have hp' : s.phase = .idle := by subst htaken; exact hp
        exact ⟨n + 1, start, e, hstart.imp_right fun hfail => ⟨hfail, hp', w, rest, ha, encodes⟩⟩
    · rw [step_tick_cons n ha, ← htaken]
      have presented : taken.txReg ≠ some .unspec := by
        subst htaken
        exact mt (programFault_txAccept ha).2 (by simp [hc])
      exact ⟨n + 1, _, congrArg Host.Outcome.next (txAccept_atTick (n + 1) hd' presented), .inl rfl⟩
    · rw [step_tick_cons n ha, ← htaken]
      exact ⟨n + 1, _, congrArg Host.Outcome.next (rxOffer_atTick (n + 1) hd'), .inl rfl⟩
    · rw [step_tick_cons n ha, ← htaken]
      exact ⟨n + 1, _, rfl, .inl rfl⟩

/-- Settles O58 by `clean_step_atTick`. -/
theorem cleanStepIgnoresFreeValues : Obligations.CleanStepIgnoresFreeValues := by
  intro s t t' n hd hc h h'
  obtain ⟨m, start, e, hstart⟩ := clean_step_atTick n hd hc h
  obtain rfl := Host.Outcome.next.inj (h'.symm.trans e)
  exact ⟨rfl, hstart⟩

end Sys2Proof.Machine
end
